-- ==== Sys2Proof/Word.lean ====
section
/-! DEFINITION. The word types and the named values of the pyload ICSP engine: signals, directions, levels, modes
(spec/00_scope.md R6, R7, R9), and a four-entry register with one value per signal (spec/10_state.md R31, R32). -/

namespace Sys2Proof

/-- A request word (R80, `W_REQ` of R7). -/
abbrev ReqWord := BitVec 32

/-- A byte of the codec. -/
abbrev Byte := BitVec 8

/-- The four logical control lines (R6 `NSIG`, R15); PGM abbreviates PROGRAM-ENABLE. -/
inductive Signal where
  | clock
  | data
  | pgm
  | reset
  deriving DecidableEq, Repr, Inhabited

/-- The direction of a signal: OUTPUT is driven, INPUT is released or tri-stated (R15, R31). -/
inductive Dir where
  | output
  | input
  deriving DecidableEq, Repr, Inhabited

/-- A logic level (R15, R32). -/
inductive Level where
  | low
  | high
  deriving DecidableEq, Repr, Inhabited

/-- The programming mode, an operand and never state (R15, R43). -/
inductive Mode where
  | mid
  | enhanced
  deriving DecidableEq, Repr, Inhabited

/-- One value per signal: the shape of the 4-bit registers DIR and LAT (R31, R32). -/
structure PerSignal (α : Type) where
  clock : α
  data : α
  pgm : α
  reset : α
  deriving DecidableEq, Repr, Inhabited

end Sys2Proof
end

