-- ==== Sys2Proof/Syntax.lean ====
section
/-! DEFINITION. The instructions: one constructor per row of spec/opcode_table.json, the 22 request operations of
spec/30_encoding.md R86 and the 12 wire opcodes of R90. -/

namespace Sys2Proof

/-- What the engine executes. The first 22 constructors are request operations (R86) with their decoded operands
(R88, R89); the last 12 are the ICSP opcodes the block puts on the wire (R90). -/
inductive Instr where
  /-- 0x01 SETDIR, format SV (R117). -/
  | setdir (sg : Signal) (d : Dir)
  /-- 0x02 SETLVL, format SV (R118). -/
  | setlvl (sg : Signal) (l : Level)
  /-- 0x03 READLVL, format S (R119). -/
  | readlvl (sg : Signal)
  /-- 0x04 RELEASEALL, format N (R120). -/
  | releaseall
  /-- 0x10 SENDBYTE, format BN: value `D[7:0]`, bit count `A[3:0]` (R130). -/
  | sendbyte (v : BitVec 8) (n : BitVec 4)
  /-- 0x11 SENDWORD, format W (R131). -/
  | sendword (w : BitVec 16)
  /-- 0x12 READBYTE, format N (R133). -/
  | readbyte
  /-- 0x13 READWORD, format N (R134). -/
  | readword
  /-- 0x20 SENDOP, format O: ICSP opcode `D[5:0]` (R150). -/
  | sendop (op : BitVec 6)
  /-- 0x21 CONFIG, format W (R151). -/
  | config (w : BitVec 16)
  /-- 0x22 LOADPGM, format W (R152). -/
  | loadpgm (w : BitVec 16)
  /-- 0x23 LOADDATA, format W (R153). -/
  | loaddata (w : BitVec 16)
  /-- 0x24 READPGM, format N (R154). -/
  | readpgm
  /-- 0x25 READDATA, format N (R155). -/
  | readdata
  /-- 0x26 RESETADDR, format N (R156). -/
  | resetaddr
  /-- 0x27 INCADDR, format C: count `D[7:0]` (R157). -/
  | incaddr (c : BitVec 8)
  /-- 0x28 PROGRAM, format M (R158). -/
  | program (m : Mode)
  /-- 0x29 BULKPGM, format M (R159). -/
  | bulkpgm (m : Mode)
  /-- 0x2A BULKDATA, format M (R160). -/
  | bulkdata (m : Mode)
  /-- 0x30 ENTER, format N (R181). -/
  | enter
  /-- 0x31 EXIT, format N (R182). -/
  | exit
  /-- 0x32 HWRESET, format N (R183). -/
  | hwreset
  /-- Wire opcode 0x00, `configure(word)` (R90, R151). -/
  | icsp00
  /-- Wire opcode 0x02, `loadProgramMemory(word)` (R90, R152). -/
  | icsp02
  /-- Wire opcode 0x03, `loadDataMemory(word)` (R90, R153). -/
  | icsp03
  /-- Wire opcode 0x04, `readProgramMemory()` (R90, R154). -/
  | icsp04
  /-- Wire opcode 0x05, `readDataMemory()` (R90, R155). -/
  | icsp05
  /-- Wire opcode 0x06, `incrementAddress(count)`, once per count (R90, R157). -/
  | icsp06
  /-- Wire opcode 0x08, `program(ENHANCED)` (R90, R158). -/
  | icsp08
  /-- Wire opcode 0x09, `bulkEraseProgram(mode)` (R90, R159). -/
  | icsp09
  /-- Wire opcode 0x0B, `bulkEraseData(mode)` (R90, R160). -/
  | icsp0B
  /-- Wire opcode 0x16, `resetAddress()` (R90, R156). -/
  | icsp16
  /-- Wire opcode 0x17, "end" of `program(MID)` and of the MID bulk erases (R90, R158). -/
  | icsp17
  /-- Wire opcode 0x18, "begin" of `program(MID)` and of the MID bulk erases (R90, R158). -/
  | icsp18
  deriving DecidableEq, Repr

/-- The signal and codec primitives the diagnostic command `T` of the dispatcher may invoke, with their operands
(spec/48_dispatcher_mapping.md R217); informative, outside the block. -/
inductive Diagnostic where
  | releaseall
  | setdir (sg : Signal) (d : Dir)
  | setlvl (sg : Signal) (l : Level)
  | readlvl (sg : Signal)
  | sendbyte (v : BitVec 8) (n : BitVec 4)
  | sendword (w : BitVec 16)
  | readbyte
  | readword
  deriving DecidableEq, Repr, Inhabited

end Sys2Proof
end

