-- ==== Sys2Proof/Config.lean ====
section
/-! DEFINITION. What an implementation fixes and what the environment supplies: the open parameters of
spec/00_scope.md R8 and spec/48_dispatcher_mapping.md, and the free values of spec/93_implementation_defined.md.
Every one is an opaque constant: no proof can use a value of it. -/

namespace Sys2Proof.Config

/-- `RESET_ASSERT_LEVEL` (R8, D15, P1): the RESET level that asserts the target's reset line. Log entry 5. -/
opaque resetAssertLevel : Level

/-- `PGM_ASSERT_LEVEL` (R8, D15, P2): the PGM level that asserts PROGRAM-ENABLE. Log entry 5. -/
opaque pgmAssertLevel : Level

/-- One less than `T_STEP`, in ns. Log entry 12. -/
opaque tStepLessOne : Nat

/-- `T_STEP` (R8, R14, D7, P3): the least time between two consecutive wire events, in ns and more than 0. -/
def tStep : Nat := tStepLessOne + 1

/-- `CLK_HZ` (R8, D7, P4): the block's clock; no rule of the model reads it. Log entry 5. -/
opaque clkHz : Nat

/-- The free value of LAT at the n-th reset (R32, R260, U5: "a draw per bit, held until written"). Log entry 3. -/
opaque resetLatch : Nat → PerSignal Level

/-- The free level of the n-th SAMPLE for which the environment has no level in store (R11, R115, U2, U6).
Log entry 4. -/
opaque freeLevel : Nat → Level

/-- `MODE_OF_BYTE` of the dispatcher (R225, P5): a total function. Log entry 14. -/
opaque modeOfByte : Byte → Mode

/-- `PROMPT_BYTE` of the dispatcher (R223, P6). Log entry 14. -/
opaque promptByte : Byte

/-- `ERR_MARKER` of the dispatcher: the two bytes of the bracket marker (R222, P7). Log entry 14. -/
opaque errMarker : Byte × Byte

/-- `VERSION_STRING` of the dispatcher, less its closing zero byte (R218, P8). Log entry 14. -/
opaque versionString : List Byte

/-- `T_SELECTOR_MAP` of the dispatcher: which primitive a selector byte of `T` names (R217, P9). Log entry 14. -/
opaque tSelectorMap : Byte → Diagnostic

/-- Whether the dispatcher has written the result bytes of the n-th response before the next request starts
(R224, U16: either order). Log entry 14. -/
opaque resultsEarly : Nat → Bool

end Sys2Proof.Config
end

