-- ==== Sys2Proof/WellFormed.lean ====
section
/-! DEFINITION. Well-formed instructions. The one operand with illegal values is SENDBYTE's bit count
(spec/30_encoding.md R88, spec/00_scope.md R6 `SENDBYTE_BITS`); every other operand value is legal. -/

namespace Sys2Proof

/-- The bit counts a byte send may have: 4 to 8 inclusive (R6, R88). -/
def legalBitCount (n : BitVec 4) : Bool := decide (4 ≤ n.toNat) && decide (n.toNat ≤ 8)

/-- The check of an instruction's operands. An ill-formed SENDBYTE still has a meaning: it is rejected with
BAD_BITCOUNT (R130, R231). -/
def wellFormed : Instr → Bool
  | .setdir _ _ => true
  | .setlvl _ _ => true
  | .readlvl _ => true
  | .releaseall => true
  | .sendbyte _ n => legalBitCount n
  | .sendword _ => true
  | .readbyte => true
  | .readword => true
  | .sendop _ => true
  | .config _ => true
  | .loadpgm _ => true
  | .loaddata _ => true
  | .readpgm => true
  | .readdata => true
  | .resetaddr => true
  | .incaddr _ => true
  | .program _ => true
  | .bulkpgm _ => true
  | .bulkdata _ => true
  | .enter => true
  | .exit => true
  | .hwreset => true
  | .icsp00 => true
  | .icsp02 => true
  | .icsp03 => true
  | .icsp04 => true
  | .icsp05 => true
  | .icsp06 => true
  | .icsp08 => true
  | .icsp09 => true
  | .icsp0B => true
  | .icsp16 => true
  | .icsp17 => true
  | .icsp18 => true

end Sys2Proof
end

