-- ==== Sys2Proof/Decode.lean ====
section
/-! DEFINITION. The decoder and the encoder (spec/30_encoding.md). Two encoding spaces meet: the 32-bit request word
(R81, R82, R86, R88, R89) and the 6-bit ICSP opcode on the wire (R90). The decoder is total (R12, D4): every request
word is an operation or is refused by name. -/

namespace Sys2Proof

/-- What there is to decode: a request word (R81), or a 6-bit opcode as it travels on the wire (R90). -/
inductive Coded where
  | request (w : ReqWord)
  | wire (op : BitVec 6)
  deriving DecidableEq, Repr

/-- Why a word is no instruction. -/
inductive DecodeError where
  /-- The OP field of a request word is reserved (R87); the request is rejected with ILLEGAL_OP (R231). -/
  | illegalOp (op : BitVec 8)
  /-- A 6-bit wire opcode R90 does not name. It is not reserved (R92): SENDOP transmits it, but no row of the table
  names it. -/
  | unnamedOpcode (op : BitVec 6)
  deriving DecidableEq, Repr

/-! ## Fields of the request word (R81, R82) -/

/-- OP = `req[7:0]`. -/
def opField (w : ReqWord) : BitVec 8 := w.extractLsb' 0 8

/-- A = `req[11:8]`. -/
def aField (w : ReqWord) : BitVec 4 := w.extractLsb' 8 4

/-- D = `req[31:16]`. -/
def dField (w : ReqWord) : BitVec 16 := w.extractLsb' 16 16

/-- Signal index (R7, R88): CLOCK = 0, DATA = 1, PGM = 2, RESET = 3. -/
def signalOfCode (c : BitVec 2) : Signal :=
  match c.toNat with
  | 0 => .clock
  | 1 => .data
  | 2 => .pgm
  | _ => .reset

/-- Direction code (R7, R88): 0 = OUTPUT, 1 = INPUT. -/
def dirOfBit (b : Bool) : Dir := if b then .input else .output

/-- Level code (R7, R88): 0 = LOW, 1 = HIGH. -/
def levelOfBit (b : Bool) : Level := if b then .high else .low

/-- Mode code (R7, R88): 0 = MID, 1 = ENHANCED. -/
def modeOfBit (b : Bool) : Mode := if b then .enhanced else .mid

/-- s = `A[1:0]`. -/
def signalField (w : ReqWord) : Signal := signalOfCode ((aField w).extractLsb' 0 2)

/-- v = `A[2]`, the direction of SETDIR or the level of SETLVL. -/
def valueField (w : ReqWord) : Bool := (aField w).getLsbD 2

/-- m = `A[0]`. -/
def modeField (w : ReqWord) : Mode := modeOfBit ((aField w).getLsbD 0)

/-- `D[7:0]`: the byte of SENDBYTE, the count of INCADDR. -/
def byteField (w : ReqWord) : BitVec 8 := (dField w).extractLsb' 0 8

/-- `D[5:0]`: the ICSP opcode of SENDOP. -/
def opcodeField (w : ReqWord) : BitVec 6 := (dField w).extractLsb' 0 6

/-! ## The decoder -/

/-- The operation a request word selects, from `req[7:0]` alone (R86), with its operands (R82, R88, R89). -/
def decodeRequest (w : ReqWord) : Except DecodeError Instr :=
  match (opField w).toNat with
  | 0x01 => .ok (.setdir (signalField w) (dirOfBit (valueField w)))
  | 0x02 => .ok (.setlvl (signalField w) (levelOfBit (valueField w)))
  | 0x03 => .ok (.readlvl (signalField w))
  | 0x04 => .ok .releaseall
  | 0x10 => .ok (.sendbyte (byteField w) (aField w))
  | 0x11 => .ok (.sendword (dField w))
  | 0x12 => .ok .readbyte
  | 0x13 => .ok .readword
  | 0x20 => .ok (.sendop (opcodeField w))
  | 0x21 => .ok (.config (dField w))
  | 0x22 => .ok (.loadpgm (dField w))
  | 0x23 => .ok (.loaddata (dField w))
  | 0x24 => .ok .readpgm
  | 0x25 => .ok .readdata
  | 0x26 => .ok .resetaddr
  | 0x27 => .ok (.incaddr (byteField w))
  | 0x28 => .ok (.program (modeField w))
  | 0x29 => .ok (.bulkpgm (modeField w))
  | 0x2A => .ok (.bulkdata (modeField w))
  | 0x30 => .ok .enter
  | 0x31 => .ok .exit
  | 0x32 => .ok .hwreset
  | _ => .error (.illegalOp (opField w))

/-- The ICSP opcode R90 names, if it names it. -/
def decodeWire (op : BitVec 6) : Except DecodeError Instr :=
  match op.toNat with
  | 0x00 => .ok .icsp00
  | 0x02 => .ok .icsp02
  | 0x03 => .ok .icsp03
  | 0x04 => .ok .icsp04
  | 0x05 => .ok .icsp05
  | 0x06 => .ok .icsp06
  | 0x08 => .ok .icsp08
  | 0x09 => .ok .icsp09
  | 0x0B => .ok .icsp0B
  | 0x16 => .ok .icsp16
  | 0x17 => .ok .icsp17
  | 0x18 => .ok .icsp18
  | _ => .error (.unnamedOpcode op)

/-- The decoder over both encoding spaces. -/
def decode : Coded → Except DecodeError Instr
  | .request w => decodeRequest w
  | .wire op => decodeWire op

/-! ## The encoder -/

/-- The inverse of `signalOfCode` (R7). -/
def signalCode : Signal → BitVec 2
  | .clock => 0
  | .data => 1
  | .pgm => 2
  | .reset => 3

/-- The direction bit (R7). -/
def dirBit : Dir → Bool
  | .output => false
  | .input => true

/-- The level bit (R7). -/
def levelBit : Level → Bool
  | .low => false
  | .high => true

/-- The mode bit (R7). -/
def modeBit : Mode → Bool
  | .mid => false
  | .enhanced => true

/-- `req = D:0000:A:OP` (R81). -/
def requestWord (d : BitVec 16) (a : BitVec 4) (op : BitVec 8) : ReqWord :=
  d ++ (0 : BitVec 4) ++ a ++ op

/-- The A field of formats S and SV, ignored bits zero: `0 : v : s` (R82). -/
def signalOperand (v : Bool) (sg : Signal) : BitVec 4 :=
  (0 : BitVec 1) ++ BitVec.ofBool v ++ signalCode sg

/-- The A field of format M, ignored bits zero (R82). -/
def modeOperand (m : Mode) : BitVec 4 := (0 : BitVec 3) ++ BitVec.ofBool (modeBit m)

/-- The words of an instruction, zero in every ignored bit (R95). -/
def encode : Instr → Coded
  | .setdir sg d => .request (requestWord 0 (signalOperand (dirBit d) sg) 0x01)
  | .setlvl sg l => .request (requestWord 0 (signalOperand (levelBit l) sg) 0x02)
  | .readlvl sg => .request (requestWord 0 (signalOperand false sg) 0x03)
  | .releaseall => .request (requestWord 0 0 0x04)
  | .sendbyte v n => .request (requestWord ((0 : BitVec 8) ++ v) n 0x10)
  | .sendword w => .request (requestWord w 0 0x11)
  | .readbyte => .request (requestWord 0 0 0x12)
  | .readword => .request (requestWord 0 0 0x13)
  | .sendop op => .request (requestWord ((0 : BitVec 10) ++ op) 0 0x20)
  | .config w => .request (requestWord w 0 0x21)
  | .loadpgm w => .request (requestWord w 0 0x22)
  | .loaddata w => .request (requestWord w 0 0x23)
  | .readpgm => .request (requestWord 0 0 0x24)
  | .readdata => .request (requestWord 0 0 0x25)
  | .resetaddr => .request (requestWord 0 0 0x26)
  | .incaddr c => .request (requestWord ((0 : BitVec 8) ++ c) 0 0x27)
  | .program m => .request (requestWord 0 (modeOperand m) 0x28)
  | .bulkpgm m => .request (requestWord 0 (modeOperand m) 0x29)
  | .bulkdata m => .request (requestWord 0 (modeOperand m) 0x2A)
  | .enter => .request (requestWord 0 0 0x30)
  | .exit => .request (requestWord 0 0 0x31)
  | .hwreset => .request (requestWord 0 0 0x32)
  | .icsp00 => .wire 0x00
  | .icsp02 => .wire 0x02
  | .icsp03 => .wire 0x03
  | .icsp04 => .wire 0x04
  | .icsp05 => .wire 0x05
  | .icsp06 => .wire 0x06
  | .icsp08 => .wire 0x08
  | .icsp09 => .wire 0x09
  | .icsp0B => .wire 0x0B
  | .icsp16 => .wire 0x16
  | .icsp17 => .wire 0x17
  | .icsp18 => .wire 0x18

/-! ## Words numbered as spec/opcode_table.json numbers them (log entry 7) -/

/-- What a row's word stands for. A request word first; a word of at most one byte whose OP is reserved as a request
(R87) is read in the wire opcode space, where the table's ICSP rows stand. -/
def codedOfTableWord (nbits w : Nat) : Coded :=
  match decodeRequest (BitVec.ofNat 32 w) with
  | .ok _ => .request (BitVec.ofNat 32 w)
  | .error _ => if nbits ≤ 8 ∧ w < 64 then .wire (BitVec.ofNat 6 w) else .request (BitVec.ofNat 32 w)

/-- The instruction the decoder reads from a word of the opcode table, if any. -/
def decodeTableWord (nbits w : Nat) : Option Instr :=
  (decode (codedOfTableWord nbits w)).toOption

end Sys2Proof
end

