-- ==== Sys2Proof/Machine/State.lean ====
section
/-! DEFINITION. The state of the engine as plain data (spec/10_state.md R30 to R44), the wire events and the response
its observation is made of (spec/40_signal.md R110, spec/30_encoding.md R84), and the state right after reset
(spec/70_reset_and_hazards.md R260, R261). -/

namespace Sys2Proof.Machine

/-- One step of the block before the environment's answer: a wire event, its SAMPLE level still to be drawn (R110,
R11). -/
inductive Action where
  /-- `DIR(s, d)` (R111). -/
  | dir (sg : Signal) (d : Dir)
  /-- `LVL(s, l)` (R112). -/
  | lvl (sg : Signal) (l : Level)
  /-- `DRIVE(s, l)` (R113). -/
  | drive (sg : Signal) (l : Level)
  /-- `RELALL` (R114). -/
  | relall
  /-- `b <- sample(s)` (R11, R115). -/
  | sample (sg : Signal)
  /-- `WAIT(t)`, t in ns (R116). -/
  | wait (t : Nat)
  deriving DecidableEq, Repr

/-- A wire event as the trace records it (R110); a SAMPLE carries the level it drew. -/
inductive WireEvent where
  | dir (sg : Signal) (d : Dir)
  | lvl (sg : Signal) (l : Level)
  | drive (sg : Signal) (l : Level)
  | relall
  | sample (sg : Signal) (b : Level)
  | wait (t : Nat)
  deriving DecidableEq, Repr

/-- One unit of an operation (R65, R94): a 6-bit opcode unit, a byte unit out or in, or a single event. -/
inductive Item where
  /-- `opOut(op)` (R150). -/
  | opcode (op : BitVec 6)
  /-- `byteOut(x, n)` (R130). -/
  | byteOut (x : BitVec 8) (n : Nat)
  /-- `byteIn()` (R133). -/
  | byteIn
  /-- One wire event of its own (R110). -/
  | event (a : Action)
  deriving DecidableEq, Repr

/-- Which result the response carries (R84). -/
inductive RspKind where
  /-- No response: the unit was no request of its own. -/
  | silent
  /-- `(0, 0x0000)`. -/
  | zero
  /-- READLVL: the sampled level (R119). -/
  | level
  /-- READBYTE: the byte of eight samples (R133). -/
  | byte
  /-- READWORD, READPGM, READDATA: the 14-bit word of sixteen samples (R134). -/
  | word
  deriving DecidableEq, Repr

/-- A response `(err, data)` (R84). -/
structure Response where
  err : Bool
  data : BitVec 16
  deriving DecidableEq, Repr

/-- A model fault (R42, R233): a mark the model records, not a stop. -/
inductive ModelFault where
  /-- An `LVL(s, l)` while `dir[s] = INPUT` (R112, U1). -/
  | driveInput (sg : Signal)
  /-- A `SAMPLE(s, b)` while `dir[s] = OUTPUT` (R115, U2). -/
  | sampleOutput (sg : Signal)
  deriving DecidableEq, Repr

/-- A set of model faults (R42): which of the eight are in it. -/
structure FaultSet where
  driveInput : PerSignal Bool
  sampleOutput : PerSignal Bool
  deriving DecidableEq, Repr

/-- The observation of a run (R13): its trace, its responses, its final signal state and its model faults. -/
structure Observation where
  trace : List WireEvent
  responses : List Response
  dir : PerSignal Dir
  lat : PerSignal Level
  faults : FaultSet
  deriving DecidableEq, Repr

/-- What the world outside does at the block's inputs next (R247). -/
inductive PortInput where
  /-- A request is presented and held until it is accepted; it runs to completion in one step (R66, R80). -/
  | request (w : ReqWord)
  /-- The same request, its operation followed unit by unit, one step each, so that a reset can fall inside it (R262). -/
  | requestStepwise (w : ReqWord)
  /-- Nothing is presented for some time (R247 "leave a gap between requests"). -/
  | gap
  /-- The reset input is asserted when the operation in progress has emitted `k` more events (R260, R262); with no
  operation in progress, at once. -/
  | reset (k : Nat)
  deriving DecidableEq, Repr

/-- The machine. `dir`, `lat`, `busy` and `faults` are the block's state σ (R30). -/
structure State where
  /-- DIR (R31). -/
  dir : PerSignal Dir
  /-- LAT (R32). -/
  lat : PerSignal Level
  /-- From the acceptance of a request to its response (R41). -/
  busy : Bool
  /-- The model faults of this run (R42). -/
  faults : FaultSet
  /-- The units of the operation in progress still to be emitted (R35). -/
  items : List Item
  /-- The levels the operation in progress has sampled, oldest first (R35). -/
  samples : List Level
  /-- The result the operation in progress will return (R35, R84). -/
  rspKind : RspKind
  /-- The wire events of this run, oldest first (R13). -/
  trace : List WireEvent
  /-- The responses of this run, oldest first (R13, R84). -/
  responses : List Response
  /-- The observations of the runs a reset has ended, oldest first (R13, R260). Log entry 9. -/
  ended : List Observation
  /-- The model's own: what the requester and the reset input do next (R247). Log entry 2. -/
  port : List PortInput
  /-- The model's own: the levels the environment has in store for the next SAMPLE events (R11, R12). Log entry 4. -/
  draws : List Level
  /-- The model's own: how many levels `Config.freeLevel` has given. Log entry 4. -/
  drawn : Nat
  /-- The model's own: how many times reset has been asserted since power-up. Log entry 3. -/
  resets : Nat
  deriving DecidableEq, Repr

/-- Why the machine would stop. It has no constructor: no rule of the spec stops the block (R12, R231, R234, R278);
what the spec calls a fault is a mark (`ModelFault`) and the machine goes on. -/
inductive Fault where
  deriving DecidableEq, Repr

/-- Why an instruction would have no meaning. No step ever answers with it: every row has its meaning. -/
inductive Refusal where
  /-- An instruction that has no meaning yet, named as in spec/opcode_table.json; raised by an arm of `exec` only, and
  safe (nothing is claimed of a run that stops). No arm raises it now. -/
  | notModelled (mnemonic : String)
  deriving DecidableEq, Repr

/-- The empty fault set (R42, R260). -/
def FaultSet.empty : FaultSet :=
  ⟨⟨false, false, false, false⟩, ⟨false, false, false, false⟩⟩

/-- The state right after the reset of power-up (R260, R261): every signal released, the latches at the free value of
that reset, not busy, no response pending, no model fault, a new run. -/
def State.reset : State where
  dir := ⟨.input, .input, .input, .input⟩
  lat := Config.resetLatch 0
  busy := false
  faults := FaultSet.empty
  items := []
  samples := []
  rspKind := .silent
  trace := []
  responses := []
  ended := []
  port := []
  draws := []
  drawn := 0
  resets := 0

end Sys2Proof.Machine
end

