-- ==== Sys2Proof/Machine/Operands.lean ====
section
/-! DEFINITION. Operand forms: the fixed durations (spec/00_scope.md R6), one signal's value in a register, the frame
of a data word (spec/30_encoding.md R93, spec/41_codec.md R131) and the read accumulator (spec/41_codec.md R133, R134). -/

namespace Sys2Proof.Machine

/-! ## Durations in ns (R6, R116); log entry 17 -/

/-- `T_CLKH`: 100 ns. -/
def tClkh : Nat := 100

/-- `T_PWR`: 1 ms. -/
def tPwr : Nat := 1000000

/-- `T_PMID`: 2 ms. -/
def tPmid : Nat := 2000000

/-- `T_5MS`: 5 ms. -/
def t5ms : Nat := 5000000

/-! ## Registers of one value per signal (R31, R32) -/

/-- The value of signal `sg`: `dir[s]`, `lat[s]`. -/
def perGet {α : Type} (r : PerSignal α) (sg : Signal) : α :=
  match sg with
  | .clock => r.clock
  | .data => r.data
  | .pgm => r.pgm
  | .reset => r.reset

/-- The register with signal `sg` at `v`: `dir[s] <- v`, `lat[s] <- v`. -/
def perSet {α : Type} (r : PerSignal α) (sg : Signal) (v : α) : PerSignal α :=
  match sg with
  | .clock => { r with clock := v }
  | .data => { r with data := v }
  | .pgm => { r with pgm := v }
  | .reset => { r with reset := v }

/-- Every signal INPUT, the released state (R114, R260). -/
def allInput : PerSignal Dir := ⟨.input, .input, .input, .input⟩

/-- The 4-bit value of DIR (R31): bit i is signal i, 1 = INPUT. -/
def dirRegister (r : PerSignal Dir) : BitVec 4 :=
  BitVec.ofBool (dirBit r.reset) ++ BitVec.ofBool (dirBit r.pgm) ++ BitVec.ofBool (dirBit r.data) ++
    BitVec.ofBool (dirBit r.clock)

/-- The 4-bit value of LAT (R32): bit i is signal i, 1 = HIGH. -/
def latRegister (r : PerSignal Level) : BitVec 4 :=
  BitVec.ofBool (levelBit r.reset) ++ BitVec.ofBool (levelBit r.pgm) ++ BitVec.ofBool (levelBit r.data) ++
    BitVec.ofBool (levelBit r.clock)

/-- The block's contribution to the pin (R33): its latch when driven, `none` (Z) when released. -/
def pin (s : State) (sg : Signal) : Option Level :=
  match perGet s.dir sg with
  | .output => some (perGet s.lat sg)
  | .input => none

/-! ## Levels -/

/-- `~l`, the other level (R8). -/
def otherLevel : Level → Level
  | .low => .high
  | .high => .low

/-! ## The 16-bit frame -/

/-- `F = zext_16(w[13:0]) << 1`: start bit 0, 14 data bits, stop bit 0 (R93, R131, C1). -/
def frame (w : BitVec 16) : BitVec 16 := ((w.extractLsb' 0 14).zeroExtend 16) <<< 1

/-- `F[7:0]`, sent first (R61, R131). -/
def frameLow (w : BitVec 16) : BitVec 8 := (frame w).extractLsb' 0 8

/-- `F[15:8]`, sent second (R61, R131). -/
def frameHigh (w : BitVec 16) : BitVec 8 := (frame w).extractLsb' 8 8

/-! ## The read accumulator -/

/-- `acc <- acc >> 1; acc[7] <- b` (R133). -/
def shiftIn (acc : BitVec 8) (b : Level) : BitVec 8 :=
  (acc >>> 1) ||| (if levelBit b then 0x80 else 0x00)

/-- The byte of a list of samples, the first in bit 0 after eight of them. R133 lets the accumulator start at any
value, since eight shifts replace all of it (log entry 16); it starts at 0 here. -/
def byteOfSamples (bs : List Level) : BitVec 8 := bs.foldl shiftIn 0

/-- `raw = hi : lo`, the low byte from the first eight samples (R134). -/
def rawOfSamples (bs : List Level) : BitVec 16 :=
  byteOfSamples ((bs.drop 8).take 8) ++ byteOfSamples (bs.take 8)

/-- `((raw >> 1) & 0x3FFF)[13:0]`: start and stop bits discarded unchecked (R134, U7). -/
def wordOfSamples (bs : List Level) : BitVec 14 :=
  ((rawOfSamples bs >>> 1) &&& 0x3FFF).extractLsb' 0 14

end Sys2Proof.Machine
end

