-- ==== Sys2Proof/Machine/Flags.lean ====
section
/-! DEFINITION. What a request reports. The block has no flags and no condition codes (spec/10_state.md R38): the one
status output is the response's `err` bit (spec/30_encoding.md R84); beside it stand the model faults
(spec/60_exceptions.md R233), which the hardware does not report. -/

namespace Sys2Proof.Machine

/-- Why a request is rejected (R232). -/
inductive Cause where
  /-- 0x0001: `req[7:0]` is no OP of R86. -/
  | illegalOp
  /-- 0x0002: SENDBYTE with `A[3:0]` outside 4..8. -/
  | badBitcount
  deriving DecidableEq, Repr

/-- The cause code, the data of a rejected request's response (R232). -/
def causeCode : Cause → BitVec 16
  | .illegalOp => 0x0001
  | .badBitcount => 0x0002

/-- `(1, cause)` (R231). -/
def rejection (c : Cause) : Response := ⟨true, causeCode c⟩

/-- HIGH = 1, LOW = 0, zero-extended (R119). -/
def levelData (b : Level) : BitVec 16 := (BitVec.ofBool (levelBit b)).zeroExtend 16

/-- The response of a completed request, computed from what it sampled (R84). A READLVL always has its one sample. -/
def responsesOf (k : RspKind) (bs : List Level) : List Response :=
  match k with
  | .silent => []
  | .zero => [⟨false, 0⟩]
  | .level => [⟨false, levelData (bs.headD .low)⟩]
  | .byte => [⟨false, (byteOfSamples bs).zeroExtend 16⟩]
  | .word => [⟨false, (wordOfSamples bs).zeroExtend 16⟩]

/-- Is the fault in the set? (R42) -/
def hasFault (f : FaultSet) : ModelFault → Bool
  | .driveInput sg => perGet f.driveInput sg
  | .sampleOutput sg => perGet f.sampleOutput sg

/-- `fault F`: F is added to the set (R11). -/
def addFault (f : FaultSet) : ModelFault → FaultSet
  | .driveInput sg => { f with driveInput := perSet f.driveInput sg true }
  | .sampleOutput sg => { f with sampleOutput := perSet f.sampleOutput sg true }

/-- The mark of an `LVL(s, l)` event: `DRIVE_INPUT(s)` when s is an input (R112, R233). -/
def markLvl (dir : PerSignal Dir) (sg : Signal) (f : FaultSet) : FaultSet :=
  match perGet dir sg with
  | .input => addFault f (.driveInput sg)
  | .output => f

/-- The mark of a `SAMPLE(s, b)` event: `SAMPLE_OUTPUT(s)` when s is an output (R115, R233). -/
def markSample (dir : PerSignal Dir) (sg : Signal) (f : FaultSet) : FaultSet :=
  match perGet dir sg with
  | .output => addFault f (.sampleOutput sg)
  | .input => f

end Sys2Proof.Machine
end

