-- ==== Sys2Proof/Machine/Ops.lean ====
section
/-! DEFINITION. The shared operations every meaning is made of: the wire events (spec/40_signal.md R111 to R116), the
codec's units (spec/41_codec.md R130, R133, spec/42_command_engine.md R150), accepting a request, answering it and
rejecting it (spec/30_encoding.md R80, R84, spec/60_exceptions.md R231), and the block's reset
(spec/70_reset_and_hazards.md R260, R262), which stands where another machine has exception entry: this one has no traps
and no return from one (R238, R239). -/

namespace Sys2Proof.Machine

/-! ## Wire events -/

/-- The level the environment shows at the next SAMPLE: the first in store, or a free level (R11, R115). -/
def drawLevel (s : State) : Level := s.draws.headD (Config.freeLevel s.drawn)

/-- The environment once that level is taken: off the store, or one more free level given. -/
def afterDraw (s : State) : State :=
  { s with draws := s.draws.tail, drawn := if s.draws.isEmpty then s.drawn + 1 else s.drawn }

/-- `emit E`: the event's state effect, and the event appended to the trace (R11, R111 to R116). -/
def emit (a : Action) (s : State) : State :=
  match a with
  | .dir sg d => { s with dir := perSet s.dir sg d, trace := s.trace ++ [.dir sg d] }
  | .lvl sg l =>
    { s with lat := perSet s.lat sg l, faults := markLvl s.dir sg s.faults, trace := s.trace ++ [.lvl sg l] }
  | .drive sg l =>
    { s with lat := perSet s.lat sg l, dir := perSet s.dir sg .output, trace := s.trace ++ [.drive sg l] }
  | .relall => { s with dir := allInput, trace := s.trace ++ [.relall] }
  | .sample sg =>
    { afterDraw s with
      faults := markSample s.dir sg s.faults
      samples := s.samples ++ [drawLevel s]
      trace := s.trace ++ [.sample sg (drawLevel s)] }
  | .wait t => { s with trace := s.trace ++ [.wait t] }

/-- Events one after another, in the order given (R70). -/
def emitAll (acts : List Action) (s : State) : State := acts.foldl (fun t a => emit a t) s

/-! ## The codec's units -/

/-- One CLOCK pulse with the bit on DATA before it (R130): LVL DATA, CLOCK HIGH, at least 100 ns, CLOCK LOW. -/
def bitOutActions (b : Bool) : List Action :=
  [.lvl .data (levelOfBit b), .lvl .clock .high, .wait tClkh, .lvl .clock .low]

/-- `repeat n` of `byteOut` (R130): the least significant bit goes out and `x` is shifted right. -/
def bitsOutActions : Nat → BitVec 8 → List Action
  | 0, _ => []
  | n + 1, x => bitOutActions (x.getLsbD 0) ++ bitsOutActions n (x >>> 1)

/-- `byteOut(x, n)` (R130). -/
def byteOutActions (x : BitVec 8) (n : Nat) : List Action :=
  .dir .data .output :: (bitsOutActions n x ++ [.lvl .data .low])

/-- `opOut(o)` (R150): its own `DIR(DATA, OUTPUT)`, then `byteOut(zext_8(o), 6)`. -/
def opOutActions (op : BitVec 6) : List Action :=
  .dir .data .output :: byteOutActions (op.zeroExtend 8) 6

/-- One CLOCK pulse with a sample of DATA at its end (R133, R275). -/
def bitInActions : List Action :=
  [.lvl .clock .high, .wait tClkh, .sample .data, .lvl .clock .low]

/-- `repeat n` of `byteIn` (R133). -/
def bitsInActions : Nat → List Action
  | 0 => []
  | n + 1 => bitInActions ++ bitsInActions n

/-- `byteIn()` (R133): always 8 bits (C3). -/
def byteInActions : List Action := .dir .data .input :: bitsInActions 8

/-- The events of one unit. -/
def itemActions : Item → List Action
  | .opcode op => opOutActions op
  | .byteOut x n => byteOutActions x n
  | .byteIn => byteInActions
  | .event a => [a]

/-- The events of several units, contiguous (R66). -/
def itemsActions (its : List Item) : List Action := its.flatMap itemActions

/-- One unit is emitted. -/
def runItem (it : Item) (s : State) : State := emitAll (itemActions it) s

/-- Units one after another. -/
def runItems (its : List Item) (s : State) : State := its.foldl (fun t it => runItem it t) s

/-! ## Named sequences of units -/

/-- `wordOut(w)` (R131): the frame's low byte, then its high byte. -/
def wordOutItems (w : BitVec 16) : List Item := [.byteOut (frameLow w) 8, .byteOut (frameHigh w) 8]

/-- `wordIn()` (R134): two byte units in. -/
def wordInItems : List Item := [.byteIn, .byteIn]

/-- `emit WAIT(t)`. -/
def waitItem (t : Nat) : Item := .event (.wait t)

/-- `assert(RESET)`: `DRIVE(RESET, RESET_ASSERT_LEVEL)` (R180). -/
def assertReset : Item := .event (.drive .reset Config.resetAssertLevel)

/-- `deassert(RESET)`: `DRIVE(RESET, ~RESET_ASSERT_LEVEL)`, a level and not a release (R180, D16). -/
def deassertReset : Item := .event (.drive .reset (otherLevel Config.resetAssertLevel))

/-- `assert(PGM)`: `DRIVE(PGM, PGM_ASSERT_LEVEL)` (R180). -/
def assertPgm : Item := .event (.drive .pgm Config.pgmAssertLevel)

/-- `deassert(PGM)`: `DRIVE(PGM, ~PGM_ASSERT_LEVEL)` (R180, D16). -/
def deassertPgm : Item := .event (.drive .pgm (otherLevel Config.pgmAssertLevel))

/-! ## A request from acceptance to response -/

/-- What a request asks for: units to emit and the result to return, or nothing but a rejection (R231). -/
inductive Plan where
  | perform (its : List Item) (k : RspKind)
  | reject (c : Cause)
  deriving DecidableEq, Repr

/-- A request is accepted: the block is busy and has sampled nothing yet (R35, R41, R80). -/
def accept (s : State) : State := { s with busy := true, samples := [] }

/-- Responses are delivered and the request is over: not busy, and nothing transient is left (R30, R35, R41, R80). -/
def answer (rs : List Response) (s : State) : State :=
  { s with responses := s.responses ++ rs, busy := false, items := [], samples := [], rspKind := .silent }

/-- The response of the operation in progress is delivered (R84, R276). -/
def complete (k : RspKind) (s : State) : State := answer (responsesOf k s.samples) s

/-- `raise Rejected(info)` (R11, R231): no event, no state change, no model fault, response `(1, cause)`. -/
def reject (c : Cause) (s : State) : State := answer [rejection c] s

/-- A request carried out from acceptance to response without interruption (R66). -/
def carryOut (p : Plan) (s : State) : State :=
  match p with
  | .perform its k => complete k (runItems its (accept s))
  | .reject c => reject c (accept s)

/-! ## Reset -/

/-- What this run has shown so far (R13). -/
def observe (s : State) : Observation := ⟨s.trace, s.responses, s.dir, s.lat, s.faults⟩

/-- The reset input (R260, R261): the release of every signal ends the run's trace, its observation is kept, and the
state is that of power-up with fresh latch draws; what the outside world has in store stays. Log entries 3 and 9. -/
def resetBlock (s : State) : State :=
  { State.reset with
    lat := Config.resetLatch (s.resets + 1)
    ended := s.ended ++ [observe (emit .relall s)]
    port := s.port
    draws := s.draws
    drawn := s.drawn
    resets := s.resets + 1 }

/-- Reset after `k` more events of the units still to come (R262): the events not yet emitted are never emitted and no
response is delivered. -/
def abortAfter (k : Nat) (s : State) : State := resetBlock (emitAll ((itemsActions s.items).take k) s)

end Sys2Proof.Machine
end

