-- ==== Sys2Proof/Machine/Codec.lean ====
section
/-! DEFINITION. The request operations of the bit/word codec (spec/41_codec.md R130 to R134). -/

namespace Sys2Proof.Machine

/-- SENDBYTE (R130): rejected when n is outside 4..8 (R88, R231), else `byteOut(v, n)`. -/
def planSendbyte (v : BitVec 8) (n : BitVec 4) : Plan :=
  if legalBitCount n then .perform [.byteOut v n.toNat] .zero else .reject .badBitcount

/-- SENDWORD (R131): `wordOut(w)`. -/
def planSendword (w : BitVec 16) : Plan := .perform (wordOutItems w) .zero

/-- READBYTE (R133): `byteIn()`. -/
def planReadbyte : Plan := .perform [.byteIn] .byte

/-- READWORD (R134): `wordIn()`. -/
def planReadword : Plan := .perform wordInItems .word

/-- The meaning of SENDBYTE (R130). -/
def execSendbyte (v : BitVec 8) (n : BitVec 4) (s : State) : Host.Outcome State Fault Refusal :=
  .next (carryOut (planSendbyte v n) s)

/-- The meaning of SENDWORD (R131). -/
def execSendword (w : BitVec 16) (s : State) : Host.Outcome State Fault Refusal :=
  .next (carryOut (planSendword w) s)

/-- The meaning of READBYTE (R133). -/
def execReadbyte (s : State) : Host.Outcome State Fault Refusal :=
  .next (carryOut planReadbyte s)

/-- The meaning of READWORD (R134). -/
def execReadword (s : State) : Host.Outcome State Fault Refusal :=
  .next (carryOut planReadword s)

end Sys2Proof.Machine
end

