-- ==== Sys2Proof/Machine/CommandEngine.lean ====
section
/-! DEFINITION. The request operations of the ICSP command sequencer (spec/42_command_engine.md R150 to R160). -/

namespace Sys2Proof.Machine

/-- The units of a bulk erase (R159, R160): the erase opcode; in MID mode 5 ms, 0x18, 5 ms, 0x17; always a closing
5 ms. -/
def bulkItems (op : BitVec 6) (m : Mode) : List Item :=
  match m with
  | .mid => [.opcode op, waitItem t5ms, .opcode 0x18, waitItem t5ms, .opcode 0x17, waitItem t5ms]
  | .enhanced => [.opcode op, waitItem t5ms]

/-- SENDOP (R150): any 6-bit value, unchanged (R92). -/
def planSendop (op : BitVec 6) : Plan := .perform [.opcode op] .zero

/-- CONFIG (R151): `opOut(0x00); wordOut(w)`. -/
def planConfig (w : BitVec 16) : Plan := .perform (.opcode 0x00 :: wordOutItems w) .zero

/-- LOADPGM (R152): `opOut(0x02); wordOut(w)`. -/
def planLoadpgm (w : BitVec 16) : Plan := .perform (.opcode 0x02 :: wordOutItems w) .zero

/-- LOADDATA (R153): `opOut(0x03); wordOut(w)`. -/
def planLoaddata (w : BitVec 16) : Plan := .perform (.opcode 0x03 :: wordOutItems w) .zero

/-- READPGM (R154): `opOut(0x04); w <- wordIn()`. -/
def planReadpgm : Plan := .perform (.opcode 0x04 :: wordInItems) .word

/-- READDATA (R155): `opOut(0x05); w <- wordIn()`. -/
def planReaddata : Plan := .perform (.opcode 0x05 :: wordInItems) .word

/-- RESETADDR (R156): `opOut(0x16)`. -/
def planResetaddr : Plan := .perform [.opcode 0x16] .zero

/-- INCADDR (R157): `repeat c { opOut(0x06) }`, nothing at all when c = 0. -/
def planIncaddr (c : BitVec 8) : Plan := .perform (List.replicate c.toNat (.opcode 0x06)) .zero

/-- PROGRAM (R158, C2): MID is 0x18, 2 ms, 0x17; ENHANCED is 0x08, 5 ms. -/
def planProgram (m : Mode) : Plan :=
  match m with
  | .mid => .perform [.opcode 0x18, waitItem tPmid, .opcode 0x17] .zero
  | .enhanced => .perform [.opcode 0x08, waitItem t5ms] .zero

/-- BULKPGM (R159). -/
def planBulkpgm (m : Mode) : Plan := .perform (bulkItems 0x09 m) .zero

/-- BULKDATA (R160): as BULKPGM with 0x0B for 0x09. -/
def planBulkdata (m : Mode) : Plan := .perform (bulkItems 0x0B m) .zero

/-- The meaning of SENDOP (R150). -/
def execSendop (op : BitVec 6) (s : State) : Host.Outcome State Fault Refusal :=
  .next (carryOut (planSendop op) s)

/-- The meaning of CONFIG (R151). -/
def execConfig (w : BitVec 16) (s : State) : Host.Outcome State Fault Refusal :=
  .next (carryOut (planConfig w) s)

/-- The meaning of LOADPGM (R152). -/
def execLoadpgm (w : BitVec 16) (s : State) : Host.Outcome State Fault Refusal :=
  .next (carryOut (planLoadpgm w) s)

/-- The meaning of LOADDATA (R153). -/
def execLoaddata (w : BitVec 16) (s : State) : Host.Outcome State Fault Refusal :=
  .next (carryOut (planLoaddata w) s)

/-- The meaning of READPGM (R154). -/
def execReadpgm (s : State) : Host.Outcome State Fault Refusal :=
  .next (carryOut planReadpgm s)

/-- The meaning of READDATA (R155). -/
def execReaddata (s : State) : Host.Outcome State Fault Refusal :=
  .next (carryOut planReaddata s)

/-- The meaning of RESETADDR (R156). -/
def execResetaddr (s : State) : Host.Outcome State Fault Refusal :=
  .next (carryOut planResetaddr s)

/-- The meaning of INCADDR (R157). -/
def execIncaddr (c : BitVec 8) (s : State) : Host.Outcome State Fault Refusal :=
  .next (carryOut (planIncaddr c) s)

/-- The meaning of PROGRAM (R158). -/
def execProgram (m : Mode) (s : State) : Host.Outcome State Fault Refusal :=
  .next (carryOut (planProgram m) s)

/-- The meaning of BULKPGM (R159). -/
def execBulkpgm (m : Mode) (s : State) : Host.Outcome State Fault Refusal :=
  .next (carryOut (planBulkpgm m) s)

/-- The meaning of BULKDATA (R160). -/
def execBulkdata (m : Mode) (s : State) : Host.Outcome State Fault Refusal :=
  .next (carryOut (planBulkdata m) s)

end Sys2Proof.Machine
end

