-- ==== Sys2Proof/Machine/Session.lean ====
section
/-! DEFINITION. The request operations of the session sequencer (spec/43_session.md R181 to R183). -/

namespace Sys2Proof.Machine

/-- ENTER (R181): release all, CLOCK and DATA to output-low, then RESET and PGM asserted in that order, 1 ms after each
stage. It looks at no state (R44). -/
def planEnter : Plan :=
  .perform
    [.event .relall, .event (.drive .clock .low), .event (.drive .data .low), waitItem tPwr, assertReset,
      waitItem tPwr, assertPgm, waitItem tPwr]
    .zero

/-- EXIT (R182): PGM and RESET deasserted in that order, 1 ms after each, then the release. -/
def planExit : Plan :=
  .perform [deassertPgm, waitItem tPwr, deassertReset, waitItem tPwr, .event .relall] .zero

/-- HWRESET (R183, U3): no event, no state change, response `(0, 0x0000)`. -/
def planHwreset : Plan := .perform [] .zero

/-- The meaning of ENTER (R181). -/
def execEnter (s : State) : Host.Outcome State Fault Refusal :=
  .next (carryOut planEnter s)

/-- The meaning of EXIT (R182). -/
def execExit (s : State) : Host.Outcome State Fault Refusal :=
  .next (carryOut planExit s)

/-- The meaning of HWRESET (R183). -/
def execHwreset (s : State) : Host.Outcome State Fault Refusal :=
  .next (carryOut planHwreset s)

end Sys2Proof.Machine
end

