-- ==== Sys2Proof/Machine/SignalMux.lean ====
section
/-! DEFINITION. The request operations of the signal multiplexer (spec/40_signal.md R117 to R120). -/

namespace Sys2Proof.Machine

/-- SETDIR (R117): `emit DIR(s, d); rsp <- (0, 0x0000)`. -/
def planSetdir (sg : Signal) (d : Dir) : Plan := .perform [.event (.dir sg d)] .zero

/-- SETLVL (R118): `emit LVL(s, l); rsp <- (0, 0x0000)`. -/
def planSetlvl (sg : Signal) (l : Level) : Plan := .perform [.event (.lvl sg l)] .zero

/-- READLVL (R119): `b <- sample(s); rsp <- (0, zext_16(b))`. -/
def planReadlvl (sg : Signal) : Plan := .perform [.event (.sample sg)] .level

/-- RELEASEALL (R120): `emit RELALL; rsp <- (0, 0x0000)`. -/
def planReleaseall : Plan := .perform [.event .relall] .zero

/-- The meaning of SETDIR (R117). -/
def execSetdir (sg : Signal) (d : Dir) (s : State) : Host.Outcome State Fault Refusal :=
  .next (carryOut (planSetdir sg d) s)

/-- The meaning of SETLVL (R118). -/
def execSetlvl (sg : Signal) (l : Level) (s : State) : Host.Outcome State Fault Refusal :=
  .next (carryOut (planSetlvl sg l) s)

/-- The meaning of READLVL (R119). -/
def execReadlvl (sg : Signal) (s : State) : Host.Outcome State Fault Refusal :=
  .next (carryOut (planReadlvl sg) s)

/-- The meaning of RELEASEALL (R120). -/
def execReleaseall (s : State) : Host.Outcome State Fault Refusal :=
  .next (carryOut planReleaseall s)

end Sys2Proof.Machine
end

