-- ==== Sys2Proof/Machine/WireOpcodes.lean ====
section
/-! DEFINITION. The twelve wire opcodes (spec/30_encoding.md R90, R91): each travels as one opcode unit, 6 CLOCK pulses
carrying `op[0]` first, then DATA LOW without a pulse (spec/42_command_engine.md R150). A unit is a part of the operation
in progress, no request of its own, so it gives no response and leaves `busy` as it is (log entry 6). -/

namespace Sys2Proof.Machine

/-- ICSP_00 (R90, R91): `opOut(0x00)`. -/
def execIcsp00 (s : State) : Host.Outcome State Fault Refusal := .next (runItem (.opcode 0x00) s)

/-- ICSP_02 (R90, R91): `opOut(0x02)`. -/
def execIcsp02 (s : State) : Host.Outcome State Fault Refusal := .next (runItem (.opcode 0x02) s)

/-- ICSP_03 (R90, R91): `opOut(0x03)`. -/
def execIcsp03 (s : State) : Host.Outcome State Fault Refusal := .next (runItem (.opcode 0x03) s)

/-- ICSP_04 (R90, R91): `opOut(0x04)`. -/
def execIcsp04 (s : State) : Host.Outcome State Fault Refusal := .next (runItem (.opcode 0x04) s)

/-- ICSP_05 (R90, R91): `opOut(0x05)`. -/
def execIcsp05 (s : State) : Host.Outcome State Fault Refusal := .next (runItem (.opcode 0x05) s)

/-- ICSP_06 (R90, R91): `opOut(0x06)`. -/
def execIcsp06 (s : State) : Host.Outcome State Fault Refusal := .next (runItem (.opcode 0x06) s)

/-- ICSP_08 (R90, R91): `opOut(0x08)`. -/
def execIcsp08 (s : State) : Host.Outcome State Fault Refusal := .next (runItem (.opcode 0x08) s)

/-- ICSP_09 (R90, R91): `opOut(0x09)`. -/
def execIcsp09 (s : State) : Host.Outcome State Fault Refusal := .next (runItem (.opcode 0x09) s)

/-- ICSP_0B (R90, R91): `opOut(0x0B)`. -/
def execIcsp0B (s : State) : Host.Outcome State Fault Refusal := .next (runItem (.opcode 0x0B) s)

/-- ICSP_16 (R90, R91): `opOut(0x16)`. -/
def execIcsp16 (s : State) : Host.Outcome State Fault Refusal := .next (runItem (.opcode 0x16) s)

/-- ICSP_17 (R90, R91): `opOut(0x17)`. -/
def execIcsp17 (s : State) : Host.Outcome State Fault Refusal := .next (runItem (.opcode 0x17) s)

/-- ICSP_18 (R90, R91): `opOut(0x18)`. -/
def execIcsp18 (s : State) : Host.Outcome State Fault Refusal := .next (runItem (.opcode 0x18) s)

end Sys2Proof.Machine
end

