-- ==== Sys2Proof/Machine/Dispatch.lean ====
section
/-! DEFINITION. One arm per instruction (spec/opcode_table.json). -/

namespace Sys2Proof.Machine

def exec (i : Instr) (s : State) : Host.Outcome State Fault Refusal :=
  match i with
  | .setdir sg d => Sys2Proof.Machine.execSetdir sg d s
  | .setlvl sg l => Sys2Proof.Machine.execSetlvl sg l s
  | .readlvl sg => Sys2Proof.Machine.execReadlvl sg s
  | .releaseall => Sys2Proof.Machine.execReleaseall s
  | .sendbyte v n => Sys2Proof.Machine.execSendbyte v n s
  | .sendword w => Sys2Proof.Machine.execSendword w s
  | .readbyte => Sys2Proof.Machine.execReadbyte s
  | .readword => Sys2Proof.Machine.execReadword s
  | .sendop op => Sys2Proof.Machine.execSendop op s
  | .config w => Sys2Proof.Machine.execConfig w s
  | .loadpgm w => Sys2Proof.Machine.execLoadpgm w s
  | .loaddata w => Sys2Proof.Machine.execLoaddata w s
  | .readpgm => Sys2Proof.Machine.execReadpgm s
  | .readdata => Sys2Proof.Machine.execReaddata s
  | .resetaddr => Sys2Proof.Machine.execResetaddr s
  | .incaddr c => Sys2Proof.Machine.execIncaddr c s
  | .program m => Sys2Proof.Machine.execProgram m s
  | .bulkpgm m => Sys2Proof.Machine.execBulkpgm m s
  | .bulkdata m => Sys2Proof.Machine.execBulkdata m s
  | .enter => Sys2Proof.Machine.execEnter s
  | .exit => Sys2Proof.Machine.execExit s
  | .hwreset => Sys2Proof.Machine.execHwreset s
  | .icsp00 => Sys2Proof.Machine.execIcsp00 s
  | .icsp02 => Sys2Proof.Machine.execIcsp02 s
  | .icsp03 => Sys2Proof.Machine.execIcsp03 s
  | .icsp04 => Sys2Proof.Machine.execIcsp04 s
  | .icsp05 => Sys2Proof.Machine.execIcsp05 s
  | .icsp06 => Sys2Proof.Machine.execIcsp06 s
  | .icsp08 => Sys2Proof.Machine.execIcsp08 s
  | .icsp09 => Sys2Proof.Machine.execIcsp09 s
  | .icsp0B => Sys2Proof.Machine.execIcsp0B s
  | .icsp16 => Sys2Proof.Machine.execIcsp16 s
  | .icsp17 => Sys2Proof.Machine.execIcsp17 s
  | .icsp18 => Sys2Proof.Machine.execIcsp18 s

end Sys2Proof.Machine
end

