-- ==== Sys2Proof/Machine/Plan.lean ====
section
/-! DEFINITION. The units of an instruction, for a request followed unit by unit (spec/20_memory.md R64, R66,
spec/10_state.md R35). -/

namespace Sys2Proof.Machine

/-- What an instruction asks for. No request word decodes to a wire opcode; one has its own unit and no response. -/
def planOf (i : Instr) : Plan :=
  match i with
  | .setdir sg d => planSetdir sg d
  | .setlvl sg l => planSetlvl sg l
  | .readlvl sg => planReadlvl sg
  | .releaseall => planReleaseall
  | .sendbyte v n => planSendbyte v n
  | .sendword w => planSendword w
  | .readbyte => planReadbyte
  | .readword => planReadword
  | .sendop op => planSendop op
  | .config w => planConfig w
  | .loadpgm w => planLoadpgm w
  | .loaddata w => planLoaddata w
  | .readpgm => planReadpgm
  | .readdata => planReaddata
  | .resetaddr => planResetaddr
  | .incaddr c => planIncaddr c
  | .program m => planProgram m
  | .bulkpgm m => planBulkpgm m
  | .bulkdata m => planBulkdata m
  | .enter => planEnter
  | .exit => planExit
  | .hwreset => planHwreset
  | .icsp00 => .perform [.opcode 0x00] .silent
  | .icsp02 => .perform [.opcode 0x02] .silent
  | .icsp03 => .perform [.opcode 0x03] .silent
  | .icsp04 => .perform [.opcode 0x04] .silent
  | .icsp05 => .perform [.opcode 0x05] .silent
  | .icsp06 => .perform [.opcode 0x06] .silent
  | .icsp08 => .perform [.opcode 0x08] .silent
  | .icsp09 => .perform [.opcode 0x09] .silent
  | .icsp0B => .perform [.opcode 0x0B] .silent
  | .icsp16 => .perform [.opcode 0x16] .silent
  | .icsp17 => .perform [.opcode 0x17] .silent
  | .icsp18 => .perform [.opcode 0x18] .silent

end Sys2Proof.Machine
end

