-- ==== Sys2Proof/Machine/Port.lean ====
section
/-! DEFINITION. The request port and the reset input (spec/30_encoding.md R80, R97, spec/60_exceptions.md R247,
spec/70_reset_and_hazards.md R262): what one step does when the block is idle and when an operation is in progress. -/

namespace Sys2Proof.Machine

/-- An accepted request runs to completion (R66, R80), or is rejected for its OP (R87, R231). -/
def runRequest (w : ReqWord) (s : State) : Host.Outcome State Fault Refusal :=
  match decodeRequest w with
  | .ok i => exec i s
  | .error _ => .next (carryOut (.reject .illegalOp) s)

/-- An accepted request whose units are still to be emitted (R35, R41). DESIGN CHOICE (log entry 21): a rejected one is
answered in the step that accepts it, so that no reset falls before its response; R262 speaks of operations only. -/
def startRequest (w : ReqWord) (s : State) : State :=
  match decodeRequest w with
  | .ok i =>
    match planOf i with
    | .perform its k => { accept s with items := its, rspKind := k }
    | .reject c => carryOut (.reject c) s
  | .error _ => carryOut (.reject .illegalOp) s

/-- The block is idle (`busy` false): it takes what the outside presents, or waits for it (R80, R247). -/
def stepIdle (s : State) : Host.Outcome State Fault Refusal :=
  match s.port with
  | [] => .next s
  | .gap :: rest => .next { s with port := rest }
  | .request w :: rest => runRequest w { s with port := rest }
  | .requestStepwise w :: rest => .next (startRequest w { s with port := rest })
  | .reset _ :: rest => .next (resetBlock { s with port := rest })

/-- The operation in progress goes on by one unit, or is answered when none is left (R66, R270). An opcode unit that
R90 names is that wire opcode's instruction; any other value is transmitted all the same (R92). -/
def advance (s : State) : Host.Outcome State Fault Refusal :=
  match s.items with
  | [] => .next (complete s.rspKind s)
  | .opcode op :: rest =>
    match decodeWire op with
    | .ok i => exec i { s with items := rest }
    | .error _ => .next (runItem (.opcode op) { s with items := rest })
  | .byteOut x n :: rest => .next (runItem (.byteOut x n) { s with items := rest })
  | .byteIn :: rest => .next (runItem .byteIn { s with items := rest })
  | .event a :: rest => .next (runItem (.event a) { s with items := rest })

/-- An operation is in progress (`busy` true): only reset interrupts it; a presented request waits, neither lost nor
rejected (R66, R97, R262). -/
def stepBusy (s : State) : Host.Outcome State Fault Refusal :=
  match s.port with
  | .reset k :: rest => .next (abortAfter k { s with port := rest })
  | [] => advance s
  | .gap :: _ => advance s
  | .request _ :: _ => advance s
  | .requestStepwise _ :: _ => advance s

/-- Where an instruction stands so that the very next step runs it: a request at the head of an idle port, a wire
opcode as the next unit of an operation in progress (log entry 7). -/
def placeCoded (c : Coded) (s : State) : State :=
  match c with
  | .request w => { s with busy := false, port := .request w :: s.port }
  | .wire op => { s with busy := true, port := .gap :: s.port, items := [.opcode op], rspKind := .silent }

end Sys2Proof.Machine
end

