-- ==== Sys2Proof/Machine/Step.lean ====
section
/-! DEFINITION. The step of the machine (spec/00_scope.md R12): one request from acceptance to response, or one unit of
an operation followed unit by unit, or one act of the outside world (log entry 1). -/

namespace Sys2Proof.Machine

/-- One step. It never faults and never refuses (R12, R278). -/
def step (s : State) : Host.Outcome State Fault Refusal :=
  if s.busy then stepBusy s else stepIdle s

/-- `s` with the instruction of a table word where the next step takes it (log entry 7). -/
def State.withFetchWord (s : State) (nbits w : Nat) : State :=
  placeCoded (codedOfTableWord nbits w) s

end Sys2Proof.Machine
end

