-- ==== Sys2Proof/Machine/Assembler.lean ====
section
/-! DEFINITION. The assembly syntax of requests and the pseudo-instructions (spec/30_encoding.md R95, R96). A line is its
mnemonic and its operands, already split at blanks and commas (log entry 18). -/

namespace Sys2Proof.Machine

/-- An operand of a line (R95): `<sig>`, `<dir>`, `<lvl>`, `<mode>`, or a number. -/
inductive AsmOperand where
  | sig (sg : Signal)
  | dir (d : Dir)
  | lvl (l : Level)
  | mode (m : Mode)
  | num (n : Nat)
  deriving DecidableEq, Repr

/-- The mnemonic of an instruction (R86; for a wire opcode, the table's). -/
def mnemonicOf : Instr → String
  | .setdir _ _ => "SETDIR"
  | .setlvl _ _ => "SETLVL"
  | .readlvl _ => "READLVL"
  | .releaseall => "RELEASEALL"
  | .sendbyte _ _ => "SENDBYTE"
  | .sendword _ => "SENDWORD"
  | .readbyte => "READBYTE"
  | .readword => "READWORD"
  | .sendop _ => "SENDOP"
  | .config _ => "CONFIG"
  | .loadpgm _ => "LOADPGM"
  | .loaddata _ => "LOADDATA"
  | .readpgm => "READPGM"
  | .readdata => "READDATA"
  | .resetaddr => "RESETADDR"
  | .incaddr _ => "INCADDR"
  | .program _ => "PROGRAM"
  | .bulkpgm _ => "BULKPGM"
  | .bulkdata _ => "BULKDATA"
  | .enter => "ENTER"
  | .exit => "EXIT"
  | .hwreset => "HWRESET"
  | .icsp00 => "ICSP_00"
  | .icsp02 => "ICSP_02"
  | .icsp03 => "ICSP_03"
  | .icsp04 => "ICSP_04"
  | .icsp05 => "ICSP_05"
  | .icsp06 => "ICSP_06"
  | .icsp08 => "ICSP_08"
  | .icsp09 => "ICSP_09"
  | .icsp0B => "ICSP_0B"
  | .icsp16 => "ICSP_16"
  | .icsp17 => "ICSP_17"
  | .icsp18 => "ICSP_18"

/-- A number that must fit its field of `w` bits (R95). -/
def fitted (w n : Nat) : Option (BitVec w) := if n < 2 ^ w then some (BitVec.ofNat w n) else none

/-- The request a line of assembly stands for, if it is one (R95): the forms of its table, nothing else. Only requests
have assembly. -/
def assemble (mnemonic : String) (operands : List AsmOperand) : Option Instr :=
  match operands with
  | [] =>
    [Instr.releaseall, .readbyte, .readword, .readpgm, .readdata, .resetaddr, .enter, .exit, .hwreset].find?
      (fun i => mnemonicOf i == mnemonic)
  | [.sig sg] => if mnemonic == "READLVL" then some (.readlvl sg) else none
  | [.sig sg, .dir d] => if mnemonic == "SETDIR" then some (.setdir sg d) else none
  | [.sig sg, .lvl l] => if mnemonic == "SETLVL" then some (.setlvl sg l) else none
  | [.mode m] => [Instr.program m, .bulkpgm m, .bulkdata m].find? (fun i => mnemonicOf i == mnemonic)
  | [.num v, .num n] =>
    if mnemonic == "SENDBYTE" then
      match fitted 8 v, fitted 4 n with
      | some v, some n => some (.sendbyte v n)
      | _, _ => none
    else none
  | [.num x] =>
    if mnemonic == "SENDOP" then (fitted 6 x).map .sendop
    else if mnemonic == "INCADDR" then (fitted 8 x).map .incaddr
    else
      match fitted 16 x with
      | some w => [Instr.sendword w, .config w, .loadpgm w, .loaddata w].find? (fun i => mnemonicOf i == mnemonic)
      | none => none
  | _ => none

/-- The operands of an instruction as R95 writes them. -/
def operandsOf : Instr → List AsmOperand
  | .setdir sg d => [.sig sg, .dir d]
  | .setlvl sg l => [.sig sg, .lvl l]
  | .readlvl sg => [.sig sg]
  | .sendbyte v n => [.num v.toNat, .num n.toNat]
  | .sendword w => [.num w.toNat]
  | .sendop op => [.num op.toNat]
  | .config w => [.num w.toNat]
  | .loadpgm w => [.num w.toNat]
  | .loaddata w => [.num w.toNat]
  | .incaddr c => [.num c.toNat]
  | .program m => [.mode m]
  | .bulkpgm m => [.mode m]
  | .bulkdata m => [.mode m]
  | .releaseall => []
  | .readbyte => []
  | .readword => []
  | .readpgm => []
  | .readdata => []
  | .resetaddr => []
  | .enter => []
  | .exit => []
  | .hwreset => []
  | .icsp00 => []
  | .icsp02 => []
  | .icsp03 => []
  | .icsp04 => []
  | .icsp05 => []
  | .icsp06 => []
  | .icsp08 => []
  | .icsp09 => []
  | .icsp0B => []
  | .icsp16 => []
  | .icsp17 => []
  | .icsp18 => []

/-- The pseudo-instructions (R96). -/
inductive Pseudo where
  | inc
  | loadinc (w : BitVec 16)
  | fetchpgm (k : Nat)
  | fetchdata (k : Nat)
  | sendword8 (b : BitVec 8)
  deriving DecidableEq, Repr

/-- The requests a pseudo-instruction expands to, in order (R96); a fetch of 0 words is nothing (D25). -/
def expandPseudo : Pseudo → List Instr
  | .inc => [.incaddr 1]
  | .loadinc w => [.loadpgm w, .incaddr 1]
  | .fetchpgm k => (List.replicate k [Instr.readpgm, .incaddr 1]).flatten
  | .fetchdata k => (List.replicate k [Instr.readdata, .incaddr 1]).flatten
  | .sendword8 b => [.sendword (b.zeroExtend 16)]

end Sys2Proof.Machine
end

