-- ==== Sys2Proof/Machine/Dispatcher.lean ====
section
/-! DEFINITION. The command dispatcher's mapping (spec/48_dispatcher_mapping.md R200 to R225), informative and outside the
block (spec/00_scope.md R4): which requests each host command issues, and which bytes go back. It stands beside the
machine, in a structure of its own; nothing of it is in State and `step` does not use it (log entry 14). -/

namespace Sys2Proof.Machine

/-- The host commands of R201 to R221, named by their characters. -/
inductive HostCommand where
  | cS | cE | cC | cD | cL | cM | cI | cJ | cB | cA | cP | cR | cF | cG | cX | cZ | cT | cV | c1 | c2 | c3
  deriving DecidableEq, Repr

/-- The command a byte selects: the ASCII codes of R200, PRESUMED by the spec itself (G1, log entry 14); any other byte
is unknown (R222). -/
def commandOfByte (b : Byte) : Option HostCommand :=
  match b.toNat with
  | 0x53 => some .cS
  | 0x45 => some .cE
  | 0x43 => some .cC
  | 0x44 => some .cD
  | 0x4C => some .cL
  | 0x4D => some .cM
  | 0x49 => some .cI
  | 0x4A => some .cJ
  | 0x42 => some .cB
  | 0x41 => some .cA
  | 0x50 => some .cP
  | 0x52 => some .cR
  | 0x46 => some .cF
  | 0x47 => some .cG
  | 0x58 => some .cX
  | 0x5A => some .cZ
  | 0x54 => some .cT
  | 0x56 => some .cV
  | 0x31 => some .c1
  | 0x32 => some .c2
  | 0x33 => some .c3
  | _ => none

/-- How many argument bytes a command reads (R201 to R221). -/
def argCount : HostCommand → Nat
  | .cS | .cE | .cB | .cA | .cP | .cT | .c1 | .c3 => 1
  | .cC | .cD | .cL | .cM | .cJ | .cF | .cG | .c2 => 2
  | .cI | .cR | .cX | .cZ | .cV => 0

/-- The first argument byte. -/
def argByte (args : List Byte) : Byte := args.headD 0

/-- A two-byte argument, little-endian: `b0, b1` is the word `b1:b0` (R200, R62). -/
def argWord (args : List Byte) : BitVec 16 := (args.drop 1).headD 0 ++ argByte args

/-- The request of a diagnostic primitive (R217). -/
def diagnosticRequest : Diagnostic → Instr
  | .releaseall => .releaseall
  | .setdir sg d => .setdir sg d
  | .setlvl sg l => .setlvl sg l
  | .readlvl sg => .readlvl sg
  | .sendbyte v n => .sendbyte v n
  | .sendword w => .sendword w
  | .readbyte => .readbyte
  | .readword => .readword

/-- The requests a command issues, in order (R201 to R221). -/
def requestsOf (c : HostCommand) (args : List Byte) : List Instr :=
  match c with
  | .cS => [.enter]
  | .cE => [.exit]
  | .cC => [.config (argWord args)]
  | .cD => [.loaddata (argWord args)]
  | .cL => [.loadpgm (argWord args)]
  | .cM => expandPseudo (.loadinc (argWord args))
  | .cI => expandPseudo .inc
  | .cJ => [.incaddr ((argWord args).extractLsb' 0 8)]
  | .cB => [.bulkpgm (Config.modeOfByte (argByte args))]
  | .cA => [.bulkdata (Config.modeOfByte (argByte args))]
  | .cP => [.program (Config.modeOfByte (argByte args))]
  | .cR => [.readpgm]
  | .cF => expandPseudo (.fetchpgm ((argWord args).extractLsb' 0 8).toNat)
  | .cG => expandPseudo (.fetchdata ((argWord args).extractLsb' 0 8).toNat)
  | .cX => [.resetaddr]
  | .cZ => [.hwreset]
  | .cT => [diagnosticRequest (Config.tSelectorMap (argByte args))]
  | .cV => []
  | .c1 => [.sendop ((argByte args).extractLsb' 0 6)]
  | .c2 => [.sendword (argWord args)]
  | .c3 => expandPseudo (.sendword8 (argByte args))

/-- The bytes a command returns for the response to one of its requests: both bytes of a program word, low first (R212,
R213), the low byte of a data word (R214), nothing else. -/
def resultBytes (c : HostCommand) (i : Instr) (r : Response) : List Byte :=
  match c, i with
  | .cR, .readpgm => [r.data.extractLsb' 0 8, r.data.extractLsb' 8 8]
  | .cF, .readpgm => [r.data.extractLsb' 0 8, r.data.extractLsb' 8 8]
  | .cG, .readdata => [r.data.extractLsb' 0 8]
  | _, _ => []

/-- The bytes a command returns besides: the version string and its zero (R218). -/
def closingBytes : HostCommand → List Byte
  | .cV => Config.versionString ++ [0]
  | _ => []

/-- Where the dispatcher stands in `IDLE → READ_OPCODE → READ_ARGS → EXECUTE → EMIT_RESULT → EMIT_PROMPT → IDLE`
(R200). -/
inductive Phase where
  | idle
  | readOpcode
  | readArgs (c : HostCommand) (need : Nat) (got : List Byte)
  | execute (c : HostCommand) (todo : List Instr) (held : List Byte)
  | emitResult (bytes : List Byte)
  | emitPrompt
  deriving DecidableEq, Repr

/-- The adapter: the block, the serial link's two directions, and the dispatcher's phase. No order between `out` and the
block's trace is recorded (R224). -/
structure Adapter where
  block : State
  link : List Byte
  out : List Byte
  phase : Phase
  issued : Nat
  deriving DecidableEq, Repr

/-- Power-up with bytes to come on the link: one prompt before the first command (R223). -/
def bootAdapter (link : List Byte) : Adapter := ⟨State.reset, link, [Config.promptByte], .idle, 0⟩

/-- One request of the dispatcher, presented to the block and run to its response. DESIGN CHOICE (log entry 20): no reset
and no gap falls inside it, since the request takes the place of whatever stood at the block's port; the spec does not
say what the dispatcher does when a reset aborts its request (R262). -/
def issueRequest (i : Instr) (b : State) : State :=
  match encode i with
  | .wire _ => b
  | .request w =>
    match step { b with port := [.request w] } with
    | .next b' => b'
    | .fault _ => b
    | .refused _ => b

/-- The last response the block gave. -/
def lastResponse (b : State) : Response := b.responses.getLastD ⟨false, 0⟩

/-- One transition of the dispatcher (R200). A link that has no byte stalls it (R200). Result bytes leave at once or are
held, in request order either way (R224). DESIGN CHOICE: R200's chain shows no path for an unrecognised byte; it goes from
READ_OPCODE straight to EMIT_RESULT with the marker of R222, without READ_ARGS(0) and EXECUTE (log entry 19). -/
def adapterStep (a : Adapter) : Adapter :=
  match a.phase with
  | .idle => { a with phase := .readOpcode }
  | .readOpcode =>
    match a.link with
    | [] => a
    | b :: rest =>
      match commandOfByte b with
      | some c => { a with link := rest, phase := .readArgs c (argCount c) [] }
      | none => { a with link := rest, phase := .emitResult [Config.errMarker.1, Config.errMarker.2] }
  | .readArgs c 0 got => { a with phase := .execute c (requestsOf c got) [] }
  | .readArgs c (n + 1) got =>
    match a.link with
    | [] => a
    | b :: rest => { a with link := rest, phase := .readArgs c n (got ++ [b]) }
  | .execute c [] held => { a with phase := .emitResult (held ++ closingBytes c) }
  | .execute c (i :: todo) held =>
    let b := issueRequest i a.block
    let bytes := held ++ resultBytes c i (lastResponse b)
    if Config.resultsEarly a.issued then
      { a with block := b, out := a.out ++ bytes, phase := .execute c todo [], issued := a.issued + 1 }
    else { a with block := b, phase := .execute c todo bytes, issued := a.issued + 1 }
  | .emitResult bytes => { a with out := a.out ++ bytes, phase := .emitPrompt }
  | .emitPrompt => { a with out := a.out ++ [Config.promptByte], phase := .idle }

/-- `k` transitions of the dispatcher. -/
def adapterRun : Nat → Adapter → Adapter
  | 0, a => a
  | k + 1, a => adapterRun k (adapterStep a)

end Sys2Proof.Machine
end

