-- ==== Sys2Proof/Machine/Timing.lean ====
section
/-! DEFINITION. What a trace shows on the wire and what time it may take: CLOCK pulses and clocked bits
(spec/20_memory.md R65, spec/41_codec.md R136), the minimum total wait (spec/70_reset_and_hazards.md R277), and the time
stamps that keep every lower bound (spec/00_scope.md R14, spec/70_reset_and_hazards.md R276). Events carry no time in
State; an upper bound exists nowhere. -/

namespace Sys2Proof.Machine

/-- A trace event without the level a SAMPLE drew. -/
def shapeOf : WireEvent → Action
  | .dir sg d => .dir sg d
  | .lvl sg l => .lvl sg l
  | .drive sg l => .drive sg l
  | .relall => .relall
  | .sample sg _ => .sample sg
  | .wait t => .wait t

/-- How long CLOCK has been held HIGH after an event, if it is HIGH: the longest WAIT since it was driven HIGH (R15,
R116). A release of CLOCK ends the hold without a pulse. -/
def holdAfter (held : Option Nat) (e : WireEvent) : Option Nat :=
  match e with
  | .lvl .clock .high => some 0
  | .lvl .clock .low => none
  | .drive .clock .high => some 0
  | .drive .clock .low => none
  | .dir .clock .input => none
  | .relall => none
  | .wait t => held.map (max t)
  | .lvl _ _ => held
  | .drive _ _ => held
  | .dir _ _ => held
  | .sample _ _ => held

/-- Does the event complete a CLOCK pulse: is CLOCK driven LOW after it was held HIGH for at least `T_CLKH`? (R15) -/
def endsPulse (held : Option Nat) (e : WireEvent) : Bool :=
  match e, held with
  | .lvl .clock .low, some h => decide (tClkh ≤ h)
  | .drive .clock .low, some h => decide (tClkh ≤ h)
  | _, _ => false

/-- The CLOCK pulses completed in a trace that begins with CLOCK held HIGH as `held` says. -/
def clockPulsesFrom (held : Option Nat) : List WireEvent → Nat
  | [] => 0
  | e :: rest => (if endsPulse held e then 1 else 0) + clockPulsesFrom (holdAfter held e) rest

/-- The CLOCK pulses of a trace (R15, R136): CLOCK driven HIGH, held at least `T_CLKH`, driven LOW. A lone SETLVL of
CLOCK is none (R65, R118). -/
def clockPulses (evs : List WireEvent) : Nat := clockPulsesFrom none evs

/-- The sum of the WAIT durations of a trace, in ns (R277, last column). -/
def waitTotal : List WireEvent → Nat
  | .wait t :: rest => t + waitTotal rest
  | _ :: rest => waitTotal rest
  | [] => 0

/-- The levels DATA shows at the rising edges of CLOCK while the block drives it, in wire order (R9, R60), from the
direction and the latch of DATA before the trace. -/
def bitsOut : Dir → Level → List WireEvent → List Level
  | _, l, .dir .data d :: rest => bitsOut d l rest
  | d, _, .lvl .data l :: rest => bitsOut d l rest
  | _, _, .drive .data l :: rest => bitsOut .output l rest
  | _, l, .relall :: rest => bitsOut .input l rest
  | .output, l, .lvl .clock .high :: rest => l :: bitsOut .output l rest
  | d, l, _ :: rest => bitsOut d l rest
  | _, _, [] => []

/-- The levels sampled in a trace, in order (R13, R60). -/
def bitsIn : List WireEvent → List Level
  | .sample _ b :: rest => b :: bitsIn rest
  | _ :: rest => bitsIn rest
  | [] => []

/-- An event at `x` keeps its distance from the one at `last`: at least `T_STEP`, and at least `due`, the longest WAIT
between them (R14). The first event of a run has none before it. -/
def distanceKept (last : Option Nat) (due x : Nat) : Bool :=
  match last with
  | none => true
  | some p => decide (p + max Config.tStep due ≤ x)

/-- Time stamps (ns) of the events other than WAIT, and `done`, the time of the response, keep every bound of R14 and
R276. A WAIT takes no stamp of its own: it bounds the time from the event before it to the event after it, or to the
response when it is the last (log entry 11). -/
def timingKept (last : Option Nat) (due : Nat) : List WireEvent → List Nat → Nat → Bool
  | [], [], done =>
    match last with
    | none => true
    | some p => decide (p + due ≤ done)
  | .wait t :: rest, stamps, done => timingKept last (max due t) rest stamps done
  | _ :: rest, x :: stamps, done => distanceKept last due x && timingKept (some x) 0 rest stamps done
  | _, _, _ => false

end Sys2Proof.Machine
end

