-- ==== Sys2Proof/Safety.lean ====
section
/-! DEFINITION. What counts as a safe run, in the terms claims use: no model fault recorded (spec/60_exceptions.md R233:
"No claim covers a run with a fault", spec/93_implementation_defined.md U1), the idle block, the session state
(spec/43_session.md R181). -/

namespace Sys2Proof.Safety

open Sys2Proof.Machine

/-- No model fault has been recorded in this run (R42). -/
abbrev FaultFree (s : State) : Prop := s.faults = FaultSet.empty

/-- Between requests: not busy and nothing transient kept (R30, R35, R41). -/
abbrev Quiet (s : State) : Prop :=
  s.busy = false ∧ s.items = [] ∧ s.samples = [] ∧ s.rspKind = .silent

/-- Every signal is released: the safe idle configuration (R114, R246). -/
abbrev Released (s : State) : Prop := s.dir = allInput

/-- The end state of ENTER (R181). -/
abbrev InSession (s : State) : Prop :=
  s.dir = ⟨.output, .output, .output, .output⟩ ∧
    s.lat = ⟨.low, .low, Config.pgmAssertLevel, Config.resetAssertLevel⟩

/-- CLOCK can be pulsed without a model fault (R264, R266). -/
abbrev ClockDriven (s : State) : Prop := s.dir.clock = .output

end Sys2Proof.Safety

namespace Sys2Proof.Machine

/-- The next `n` levels the environment shows, with `draws` in store and `drawn` free levels already given (R11): the
store first, in order (R12), then free levels. -/
def nextLevels : Nat → List Level → Nat → List Level
  | 0, _, _ => []
  | n + 1, b :: bs, drawn => b :: nextLevels n bs drawn
  | n + 1, [], drawn => Config.freeLevel drawn :: nextLevels n [] (drawn + 1)

end Sys2Proof.Machine
end

