-- ==== Sys2Proof/Certificates/Slice0/Obligations.lean ====
section
/-! DEFINITION. The statements for the provers. The first part is their vocabulary: wire events written out from the
rules' own event lists, independently of the operations the model computes them with. -/

namespace Sys2Proof.Slice0

open Sys2Proof.Machine

/-! ## Vocabulary: what a request leaves -/

/-- The state after a request that leaves DIR, LAT and the model faults as given, emits `evs` and answers `r`. Every
field not named is as before; the transient fields are empty again (R30, R35, R41). -/
def finished (s : State) (d : PerSignal Dir) (l : PerSignal Level) (f : FaultSet) (evs : List WireEvent) (r : Response) :
    State :=
  { s with
    dir := d
    lat := l
    faults := f
    trace := s.trace ++ evs
    responses := s.responses ++ [r]
    busy := false
    items := []
    samples := []
    rspKind := .silent }

/-- `(0, 0x0000)`, the response of an operation with no result (R84). -/
def okZero : Response := ⟨false, 0x0000⟩

/-- DATA made an output, the other directions as they were. -/
def dataOutput (d : PerSignal Dir) : PerSignal Dir := { d with data := .output }

/-- DATA made an input, the other directions as they were. -/
def dataInput (d : PerSignal Dir) : PerSignal Dir := { d with data := .input }

/-- The latches after a unit out: CLOCK and DATA LOW, PGM and RESET as they were. -/
def sentLatches (l : PerSignal Level) : PerSignal Level := { l with clock := .low, data := .low }

/-- The latches after a unit in: CLOCK LOW, the others as they were. -/
def readLatches (l : PerSignal Level) : PerSignal Level := { l with clock := .low }

/-- `DRIVE_INPUT(CLOCK)` recorded when CLOCK is an input, no other mark touched (R112, R264). -/
def clockMark (d : PerSignal Dir) (f : FaultSet) : FaultSet :=
  if d.clock = .input then { f with driveInput := { f.driveInput with clock := true } } else f

/-- The pulses that carry `bits` (R130): each bit on DATA, CLOCK HIGH, 100 ns, CLOCK LOW. -/
def sendPulses (bits : List Bool) : List WireEvent :=
  bits.flatMap fun b =>
    [.lvl .data (if b then .high else .low), .lvl .clock .high, .wait 100, .lvl .clock .low]

/-- A byte unit out (R130): DATA made an output, the pulses, DATA LOW without a pulse. -/
def unitOut (bits : List Bool) : List WireEvent := .dir .data .output :: (sendPulses bits ++ [.lvl .data .low])

/-- `v[0], v[1], ..., v[n-1]` (R130). -/
def byteBits (v : BitVec 8) (n : Nat) : List Bool := (List.range n).map v.getLsbD

/-- `0, w[0], ..., w[13], 0` (R93). -/
def frameBits (w : BitVec 16) : List Bool := false :: ((List.range 14).map w.getLsbD ++ [false])

/-- The frame of `w` as two byte units (R131). -/
def frameOut (w : BitVec 16) : List WireEvent := unitOut ((frameBits w).take 8) ++ unitOut ((frameBits w).drop 8)

/-- An opcode unit (R91, R150): `DIR(DATA, OUTPUT)` twice, six pulses, DATA LOW. -/
def opcodeOut (op : BitVec 6) : List WireEvent := .dir .data .output :: unitOut ((List.range 6).map op.getLsbD)

/-- A byte unit in (R133) with the levels it samples. -/
def unitIn (ls : List Level) : List WireEvent :=
  .dir .data .input :: ls.flatMap fun b => [.lvl .clock .high, .wait 100, .sample .data b, .lvl .clock .low]

/-- The value of a list of levels, the first in bit 0 (R60). -/
def valueOf : List Level → Nat
  | [] => 0
  | b :: bs => (if b = .high then 1 else 0) + 2 * valueOf bs

/-- What a sending request leaves (R267): DATA an output at LOW, CLOCK LOW, the CLOCK mark, `(0, 0x0000)`. -/
def sent (s : State) (evs : List WireEvent) : State :=
  finished s (dataOutput s.dir) (sentLatches s.lat) (clockMark s.dir s.faults) evs okZero

/-- The next `n` levels the environment shows. -/
def upcoming (s : State) (n : Nat) : List Level := nextLevels n s.draws s.drawn

/-- The environment after `n` samples. -/
def drawnOff (n : Nat) (s : State) : State :=
  { s with draws := s.draws.drop n, drawn := s.drawn + (n - s.draws.length) }

/-- What an opcode unit leaves inside an operation: no response, `busy` as it is (R91). -/
def unitSent (s : State) (evs : List WireEvent) : State :=
  { s with
    dir := dataOutput s.dir
    lat := sentLatches s.lat
    faults := clockMark s.dir s.faults
    trace := s.trace ++ evs }

/-! ## Vocabulary: tables and classes -/

/-- The OP values of R86. -/
def assignedOps : List (BitVec 8) :=
  [0x01, 0x02, 0x03, 0x04, 0x10, 0x11, 0x12, 0x13, 0x20, 0x21, 0x22, 0x23, 0x24, 0x25, 0x26, 0x27, 0x28, 0x29, 0x2A, 0x30,
    0x31, 0x32]

/-- The request bits an operation uses, by its format in R82; the rest are ignored. -/
def usedBits (op : BitVec 8) : ReqWord :=
  if op = 0x01 ∨ op = 0x02 then 0x000007FF
  else if op = 0x03 then 0x000003FF
  else if op = 0x10 then 0x00FF0FFF
  else if op = 0x11 ∨ op = 0x21 ∨ op = 0x22 ∨ op = 0x23 then 0xFFFF00FF
  else if op = 0x20 then 0x003F00FF
  else if op = 0x27 then 0x00FF00FF
  else if op = 0x28 ∨ op = 0x29 ∨ op = 0x2A then 0x000001FF
  else 0x000000FF

/-- The codec and command-sequencer operations and the wire opcodes: what pulses CLOCK. -/
def pulses (i : Instr) : Bool :=
  match i with
  | .setdir _ _ => false
  | .setlvl _ _ => false
  | .readlvl _ => false
  | .releaseall => false
  | .sendbyte _ _ => true
  | .sendword _ => true
  | .readbyte => true
  | .readword => true
  | .sendop _ => true
  | .config _ => true
  | .loadpgm _ => true
  | .loaddata _ => true
  | .readpgm => true
  | .readdata => true
  | .resetaddr => true
  | .incaddr _ => true
  | .program _ => true
  | .bulkpgm _ => true
  | .bulkdata _ => true
  | .enter => false
  | .exit => false
  | .hwreset => false
  | .icsp00 => true
  | .icsp02 => true
  | .icsp03 => true
  | .icsp04 => true
  | .icsp05 => true
  | .icsp06 => true
  | .icsp08 => true
  | .icsp09 => true
  | .icsp0B => true
  | .icsp16 => true
  | .icsp17 => true
  | .icsp18 => true

/-- One number for each mode. -/
def byMode (m : Mode) (mid enhanced : Nat) : Nat :=
  match m with
  | .mid => mid
  | .enhanced => enhanced

/-- The table of R277: the number of wire events. -/
def eventCount (i : Instr) : Nat :=
  match i with
  | .setdir _ _ => 1
  | .setlvl _ _ => 1
  | .readlvl _ => 1
  | .releaseall => 1
  | .sendbyte _ n => if 4 ≤ n.toNat ∧ n.toNat ≤ 8 then 4 * n.toNat + 2 else 0
  | .sendword _ => 68
  | .readbyte => 33
  | .readword => 66
  | .sendop _ => 27
  | .config _ => 95
  | .loadpgm _ => 95
  | .loaddata _ => 95
  | .readpgm => 93
  | .readdata => 93
  | .resetaddr => 27
  | .incaddr c => 27 * c.toNat
  | .program m => byMode m 55 28
  | .bulkpgm m => byMode m 84 28
  | .bulkdata m => byMode m 84 28
  | .enter => 8
  | .exit => 5
  | .hwreset => 0
  | .icsp00 => 27
  | .icsp02 => 27
  | .icsp03 => 27
  | .icsp04 => 27
  | .icsp05 => 27
  | .icsp06 => 27
  | .icsp08 => 27
  | .icsp09 => 27
  | .icsp0B => 27
  | .icsp16 => 27
  | .icsp17 => 27
  | .icsp18 => 27

/-- The table of R277: the number of CLOCK pulses. -/
def pulseCount (i : Instr) : Nat :=
  match i with
  | .setdir _ _ => 0
  | .setlvl _ _ => 0
  | .readlvl _ => 0
  | .releaseall => 0
  | .sendbyte _ n => if 4 ≤ n.toNat ∧ n.toNat ≤ 8 then n.toNat else 0
  | .sendword _ => 16
  | .readbyte => 8
  | .readword => 16
  | .sendop _ => 6
  | .config _ => 22
  | .loadpgm _ => 22
  | .loaddata _ => 22
  | .readpgm => 22
  | .readdata => 22
  | .resetaddr => 6
  | .incaddr c => 6 * c.toNat
  | .program m => byMode m 12 6
  | .bulkpgm m => byMode m 18 6
  | .bulkdata m => byMode m 18 6
  | .enter => 0
  | .exit => 0
  | .hwreset => 0
  | .icsp00 => 6
  | .icsp02 => 6
  | .icsp03 => 6
  | .icsp04 => 6
  | .icsp05 => 6
  | .icsp06 => 6
  | .icsp08 => 6
  | .icsp09 => 6
  | .icsp0B => 6
  | .icsp16 => 6
  | .icsp17 => 6
  | .icsp18 => 6

/-- The table of R277: the waits of an operation besides those of its pulses, in ns. -/
def longWait (i : Instr) : Nat :=
  match i with
  | .setdir _ _ => 0
  | .setlvl _ _ => 0
  | .readlvl _ => 0
  | .releaseall => 0
  | .sendbyte _ _ => 0
  | .sendword _ => 0
  | .readbyte => 0
  | .readword => 0
  | .sendop _ => 0
  | .config _ => 0
  | .loadpgm _ => 0
  | .loaddata _ => 0
  | .readpgm => 0
  | .readdata => 0
  | .resetaddr => 0
  | .incaddr _ => 0
  | .program m => byMode m 2000000 5000000
  | .bulkpgm m => byMode m 15000000 5000000
  | .bulkdata m => byMode m 15000000 5000000
  | .enter => 3000000
  | .exit => 2000000
  | .hwreset => 0
  | .icsp00 => 0
  | .icsp02 => 0
  | .icsp03 => 0
  | .icsp04 => 0
  | .icsp05 => 0
  | .icsp06 => 0
  | .icsp08 => 0
  | .icsp09 => 0
  | .icsp0B => 0
  | .icsp16 => 0
  | .icsp17 => 0
  | .icsp18 => 0

/-- The table of R277: the minimum total wait in ns, 100 ns for every pulse and the long waits. -/
def minimumWait (i : Instr) : Nat := 100 * pulseCount i + longWait i

/-- May the event stand where CLOCK's latch is `c`? DATA is changed only while it is LOW and sampled only while it is
HIGH (R274, R275). Nothing but an LVL moves CLOCK, and nothing but a DIR or an LVL moves DATA: DRIVE of either, DIR of
CLOCK and RELALL are refused. -/
def dataAllowed (c : Level) (e : WireEvent) : Bool :=
  match e with
  | .dir .data _ => c == .low
  | .lvl .data _ => c == .low
  | .sample .data _ => c == .high
  | .dir .clock _ => false
  | .drive .clock _ => false
  | .drive .data _ => false
  | .relall => false
  | .dir _ _ => true
  | .lvl _ _ => true
  | .drive _ _ => true
  | .sample _ _ => true
  | .wait _ => true

/-- CLOCK's latch after an event that `dataAllowed` allows. -/
def clockAfter (c : Level) (e : WireEvent) : Level :=
  match e with
  | .lvl .clock l => l
  | _ => c

/-- Every event of the list is allowed where it stands; `c` is CLOCK's latch before the events. -/
def dataOrdered (c : Level) : List WireEvent → Bool
  | [] => true
  | e :: rest => dataAllowed c e && dataOrdered (clockAfter c e) rest

/-- An observation with its model faults left out. -/
def faultsBlanked (o : Observation) : Observation := { o with faults := FaultSet.empty }

/-- The word of a frame's sixteen levels, zero-extended (R134). -/
def wordRead (ls : List Level) : BitVec 16 := BitVec.ofNat 16 (valueOf ((ls.drop 1).take 14))

/-- What READPGM and then INCADDR 1 emit when READPGM samples `ls` (R154, R157). -/
def fetchEvents (ls : List Level) : List WireEvent :=
  opcodeOut 0x04 ++ (unitIn (ls.take 8) ++ unitIn (ls.drop 8)) ++ opcodeOut 0x06

/-! ## Vocabulary: invariants -/

/-- One event's effect on DIR, LAT and the model faults, from R111 to R116 and R233. -/
def replayEvent (x : PerSignal Dir × PerSignal Level × FaultSet) (e : WireEvent) :
    PerSignal Dir × PerSignal Level × FaultSet :=
  match e with
  | .dir sg d => (perSet x.1 sg d, x.2.1, x.2.2)
  | .lvl sg l =>
    (x.1, perSet x.2.1 sg l, if perGet x.1 sg = .input then addFault x.2.2 (.driveInput sg) else x.2.2)
  | .drive sg l => (perSet x.1 sg .output, perSet x.2.1 sg l, x.2.2)
  | .relall => (⟨.input, .input, .input, .input⟩, x.2.1, x.2.2)
  | .sample sg _ => (x.1, x.2.1, if perGet x.1 sg = .output then addFault x.2.2 (.sampleOutput sg) else x.2.2)
  | .wait _ => x

/-- The run's trace, replayed from the reset that began the run, accounts for DIR, LAT and the model faults (R34). -/
def TraceAccounts (s : State) : Prop :=
  s.trace.foldl replayEvent (⟨.input, .input, .input, .input⟩, Config.resetLatch s.resets, FaultSet.empty) =
    (s.dir, s.lat, s.faults)

/-- Between requests nothing transient is kept (R30, R35). -/
def QuietWhenIdle (s : State) : Prop := s.busy = false → s.items = [] ∧ s.samples = [] ∧ s.rspKind = .silent

/-- How many levels a result is made of (R119, R133, R134). -/
def samplesWanted : RspKind → Nat
  | .silent => 0
  | .zero => 0
  | .level => 1
  | .byte => 8
  | .word => 16

/-- How many levels a unit samples. -/
def samplesOf : Item → Nat
  | .opcode _ => 0
  | .byteOut _ _ => 0
  | .byteIn => 8
  | .event (.sample _) => 1
  | .event _ => 0

/-- While an operation is in progress, the levels it has sampled and those its remaining units will sample are as many
as its result needs. -/
def SamplesAddUp (s : State) : Prop :=
  s.busy = true → s.samples.length + (s.items.map samplesOf).sum = samplesWanted s.rspKind

end Sys2Proof.Slice0

open Sys2Proof Sys2Proof.Machine Sys2Proof.Slice0

/-! ## Encoding -/

/-- Words written out from the tables of R82, R86 and R90 decode to the instructions they stand for. -/
def Obligations.WordsDecodeAsEncodedInTheSpec : Prop :=
  decodeRequest 0x00000701 = .ok (.setdir .reset .input) ∧
    decodeRequest 0x00000402 = .ok (.setlvl .clock .high) ∧
    decodeRequest 0x00A50610 = .ok (.sendbyte 0xA5 6) ∧
    decodeRequest 0x2ABC0022 = .ok (.loadpgm 0x2ABC) ∧
    decodeRequest 0x00030027 = .ok (.incaddr 3) ∧
    decodeRequest 0x0000012A = .ok (.bulkdata .enhanced) ∧
    decodeRequest 0x00000030 = .ok .enter ∧
    decodeWire 0b010110 = .ok .icsp16

/-- Decoding what is encoded gives the instruction back, for every instruction and operand (R82, R86, R90, R95). That
wire opcodes are instructions is log entry 6. -/
def Obligations.DecodeOfEncodeIsIdentity : Prop :=
  ∀ i : Instr, decode (encode i) = .ok i

/-- Encoding what a request word decodes to gives the word with its ignored bits zero (R82, R85, R95). -/
def Obligations.EncodeOfDecodeClearsIgnoredBits : Prop :=
  ∀ (w : ReqWord) (i : Instr), decodeRequest w = .ok i → encode i = .request (w &&& usedBits (opField w))

/-- Two words that differ in ignored bits only have one effect from every idle state (R85). -/
def Obligations.IgnoredBitsHaveNoEffect : Prop :=
  ∀ (w w' : ReqWord) (s : State) (rest : List PortInput),
    s.busy = false → w &&& usedBits (opField w) = w' &&& usedBits (opField w) →
      step { s with port := .request w :: rest } = step { s with port := .request w' :: rest }

/-- The encoder writes the words of R95's table of assembly forms. -/
def Obligations.EncoderWritesTheAssemblyTable : Prop :=
  (∀ sg d, encode (.setdir sg d) = .request
      ((0x00000001 : ReqWord) ||| ((BitVec.ofBool (dirBit d)).zeroExtend 32 <<< 10) |||
        ((signalCode sg).zeroExtend 32 <<< 8))) ∧
    (∀ sg l, encode (.setlvl sg l) = .request
      ((0x00000002 : ReqWord) ||| ((BitVec.ofBool (levelBit l)).zeroExtend 32 <<< 10) |||
        ((signalCode sg).zeroExtend 32 <<< 8))) ∧
    (∀ sg, encode (.readlvl sg) = .request ((0x00000003 : ReqWord) ||| ((signalCode sg).zeroExtend 32 <<< 8))) ∧
    (∀ v n, encode (.sendbyte v n) = .request
      ((0x00000010 : ReqWord) ||| (v.zeroExtend 32 <<< 16) ||| (n.zeroExtend 32 <<< 8))) ∧
    (∀ w, encode (.sendword w) = .request ((0x00000011 : ReqWord) ||| (w.zeroExtend 32 <<< 16))) ∧
    (∀ op, encode (.sendop op) = .request ((0x00000020 : ReqWord) ||| (op.zeroExtend 32 <<< 16))) ∧
    (∀ w, encode (.config w) = .request ((0x00000021 : ReqWord) ||| (w.zeroExtend 32 <<< 16))) ∧
    (∀ w, encode (.loadpgm w) = .request ((0x00000022 : ReqWord) ||| (w.zeroExtend 32 <<< 16))) ∧
    (∀ w, encode (.loaddata w) = .request ((0x00000023 : ReqWord) ||| (w.zeroExtend 32 <<< 16))) ∧
    (∀ c, encode (.incaddr c) = .request ((0x00000027 : ReqWord) ||| (c.zeroExtend 32 <<< 16))) ∧
    (∀ m, encode (.program m) = .request
      ((0x00000028 : ReqWord) ||| ((BitVec.ofBool (modeBit m)).zeroExtend 32 <<< 8))) ∧
    (∀ m, encode (.bulkpgm m) = .request
      ((0x00000029 : ReqWord) ||| ((BitVec.ofBool (modeBit m)).zeroExtend 32 <<< 8))) ∧
    (∀ m, encode (.bulkdata m) = .request
      ((0x0000002A : ReqWord) ||| ((BitVec.ofBool (modeBit m)).zeroExtend 32 <<< 8))) ∧
    encode .releaseall = .request 0x00000004 ∧ encode .readbyte = .request 0x00000012 ∧
    encode .readword = .request 0x00000013 ∧ encode .readpgm = .request 0x00000024 ∧
    encode .readdata = .request 0x00000025 ∧ encode .resetaddr = .request 0x00000026 ∧
    encode .enter = .request 0x00000030 ∧ encode .exit = .request 0x00000031 ∧ encode .hwreset = .request 0x00000032

/-- Assembling an instruction's own mnemonic and operands gives it back, for every request (R95). A line is already
split into tokens (log entry 18). -/
def Obligations.AssemblingAnInstructionsLineGivesIt : Prop :=
  ∀ (i : Instr) (w : ReqWord), encode i = .request w → assemble (mnemonicOf i) (operandsOf i) = some i

/-! ## The request port -/

/-- An idle block takes the presented word off the port and runs the instruction it decodes to; a busy one takes the
next unit and, where that is a wire opcode R90 names, runs it (R80, R86, R90). One step as one request or one unit is
log entry 1; wire opcodes as instructions are log entry 6. -/
def Obligations.StepRunsTheDecodedInstruction : Prop :=
  (∀ (s : State) (w : ReqWord) (i : Instr) (rest : List PortInput),
      s.busy = false → s.port = .request w :: rest → decode (.request w) = .ok i →
        step s = exec i { s with port := rest }) ∧
    (∀ (s : State) (op : BitVec 6) (i : Instr) (rest : List Item),
      s.busy = true → s.items = .opcode op :: rest → (∀ k r, s.port ≠ .reset k :: r) → decode (.wire op) = .ok i →
        step s = exec i { s with items := rest })

/-- A request with a reserved OP, and a SENDBYTE with a bit count outside 4 to 8, is rejected: no wire event, no state
change, no model fault, the response `(1, cause)`, and the block is ready for the next (R87, R231, R232). -/
def Obligations.RejectedRequestsOnlyAnswerTheCause : Prop :=
  ∀ (s : State) (w : ReqWord) (rest : List PortInput),
    s.busy = false → s.port = .request w :: rest →
      (w.extractLsb' 0 8 ∉ assignedOps →
        step s = .next (finished { s with port := rest } s.dir s.lat s.faults [] ⟨true, 0x0001⟩)) ∧
      (w.extractLsb' 0 8 = 0x10 → ((w.extractLsb' 8 4).toNat < 4 ∨ 8 < (w.extractLsb' 8 4).toNat) →
        step s = .next (finished { s with port := rest } s.dir s.lat s.faults [] ⟨true, 0x0002⟩))

/-- Every request an idle block accepts is answered by exactly one response in that step, and the block is idle again
(R84, R66). That a request is one step is log entry 1. -/
def Obligations.OneResponsePerRequest : Prop :=
  ∀ (s : State) (w : ReqWord) (rest : List PortInput),
    s.busy = false → s.port = .request w :: rest →
      ∃ (t : State) (r : Response), step s = .next t ∧ t.responses = s.responses ++ [r] ∧ t.busy = false ∧ t.port = rest

/-- While an operation is in progress a presented request waits, whichever way its own operation will be followed: the
port is untouched, no response is given before the last unit is out, and the response ends the busy time (R97, R41).
Following an operation unit by unit is log entry 1. -/
def Obligations.PresentedRequestWaitsWhileBusy : Prop :=
  ∀ (s : State) (p : PortInput) (w : ReqWord) (rest : List PortInput),
    s.busy = true → (p = .request w ∨ p = .requestStepwise w) → s.port = p :: rest →
      ∃ t : State, step s = .next t ∧ t.port = s.port ∧ t.ended = s.ended ∧
        (s.items ≠ [] → t.busy = true ∧ t.responses = s.responses ∧ t.items = s.items.tail) ∧
        (s.items = [] → t.busy = false ∧ t.responses = s.responses ++ responsesOf s.rspKind s.samples)

/-- No state stops the machine: every step answers a next state (R12, R278). See log entry 15. -/
def Obligations.EveryStepAnswersANextState : Prop :=
  ∀ s : State, ∃ t : State, step s = .next t

/-! ## The signal multiplexer -/

/-- What DIR, LVL, DRIVE and RELALL do to DIR, LAT, the pins, the model faults and the trace (R111 to R114): nothing
else of the state changes. -/
def Obligations.PinEventsActOnTheSignalState : Prop :=
  ∀ (sg : Signal) (d : Dir) (l : Level) (s : State),
    (emit (.dir sg d) s = { s with dir := perSet s.dir sg d, trace := s.trace ++ [.dir sg d] } ∧
        pin (emit (.dir sg d) s) sg = if d = .output then some (perGet s.lat sg) else none) ∧
      (emit (.lvl sg l) s = { s with
          lat := perSet s.lat sg l
          faults := if perGet s.dir sg = .input then addFault s.faults (.driveInput sg) else s.faults
          trace := s.trace ++ [.lvl sg l] } ∧
        pin (emit (.lvl sg l) s) sg = if perGet s.dir sg = .output then some l else none) ∧
      (emit (.drive sg l) s = { s with
          lat := perSet s.lat sg l
          dir := perSet s.dir sg .output
          trace := s.trace ++ [.drive sg l] } ∧
        pin (emit (.drive sg l) s) sg = some l) ∧
      emit .relall s = { s with dir := ⟨.input, .input, .input, .input⟩, trace := s.trace ++ [.relall] } ∧
      pin (emit .relall s) sg = none

/-- SAMPLE and WAIT change neither DIR nor LAT nor a pin (R115, R116). A SAMPLE takes the next level the environment
shows, whatever the latch holds, and marks an output; a WAIT records its duration and does nothing else, the interval
it bounds being a matter of time stamps. The store of levels a SAMPLE takes from is log entry 4, the reading of a WAIT
in time stamps log entry 11: the model's choices. -/
def Obligations.SampleAndWaitChangeNoSignal : Prop :=
  (∀ (sg : Signal) (s : State),
      (∃ b : Level, upcoming s 1 = [b] ∧
        emit (.sample sg) s = { drawnOff 1 s with
          faults := if perGet s.dir sg = .output then addFault s.faults (.sampleOutput sg) else s.faults
          samples := s.samples ++ [b]
          trace := s.trace ++ [.sample sg b] }) ∧
        ∀ x : Signal, pin (emit (.sample sg) s) x = pin s x) ∧
    (∀ (t : Nat) (s : State),
      emit (.wait t) s = { s with trace := s.trace ++ [.wait t] } ∧ ∀ x : Signal, pin (emit (.wait t) s) x = pin s x) ∧
    ∀ (t x y done : Nat) (before after : WireEvent), (∀ u, before ≠ .wait u) → (∀ u, after ≠ .wait u) →
      timingKept none 0 [before, .wait t, after] [x, y] done = true → x + t ≤ y ∧ x + Config.tStep ≤ y

/-- SETDIR (R117, R111). -/
def Obligations.SetdirWritesOneDirection : Prop :=
  (∀ w : ReqWord, w.extractLsb' 0 8 = 0x01 →
      decodeRequest w = .ok (.setdir (signalOfCode (w.extractLsb' 8 2)) (dirOfBit (w.getLsbD 10)))) ∧
    ∀ (sg : Signal) (d : Dir) (s : State),
      exec (.setdir sg d) s = .next (finished s (perSet s.dir sg d) s.lat s.faults [.dir sg d] okZero)

/-- SETLVL (R118, R112): the latch is written either way; on an input the fault is recorded. -/
def Obligations.SetlvlWritesOneLatch : Prop :=
  (∀ w : ReqWord, w.extractLsb' 0 8 = 0x02 →
      decodeRequest w = .ok (.setlvl (signalOfCode (w.extractLsb' 8 2)) (levelOfBit (w.getLsbD 10)))) ∧
    ∀ (sg : Signal) (l : Level) (s : State),
      exec (.setlvl sg l) s = .next (finished s s.dir (perSet s.lat sg l)
        (if perGet s.dir sg = .input then addFault s.faults (.driveInput sg) else s.faults) [.lvl sg l] okZero)

/-- READLVL (R119, R115): the response is the level the environment shows, whatever the latch holds. -/
def Obligations.ReadlvlReturnsTheSampledLevel : Prop :=
  (∀ w : ReqWord, w.extractLsb' 0 8 = 0x03 → decodeRequest w = .ok (.readlvl (signalOfCode (w.extractLsb' 8 2)))) ∧
    ∀ (sg : Signal) (s : State), ∃ b : Level, upcoming s 1 = [b] ∧
      exec (.readlvl sg) s = .next (drawnOff 1 (finished s s.dir s.lat
        (if perGet s.dir sg = .output then addFault s.faults (.sampleOutput sg) else s.faults) [.sample sg b]
        ⟨false, if b = .high then 0x0001 else 0x0000⟩))

/-- RELEASEALL (R120, R114). -/
def Obligations.ReleaseallReleasesEverySignal : Prop :=
  (∀ w : ReqWord, w.extractLsb' 0 8 = 0x04 → decodeRequest w = .ok .releaseall) ∧
    ∀ s : State,
      exec .releaseall s = .next (finished s ⟨.input, .input, .input, .input⟩ s.lat s.faults [.relall] okZero)

/-- A latch written on an input does not show on the pin until the signal is made an output; then it does (R112, R33,
R111). The spec marks this as derived from its event rules (the corner case of R118). -/
def Obligations.LatchShowsOnlyOnAnOutput : Prop :=
  ∀ (sg : Signal) (l : Level) (s : State), perGet s.dir sg = .input →
    ∃ t u : State, exec (.setlvl sg l) s = .next t ∧ pin t sg = none ∧ hasFault t.faults (.driveInput sg) = true ∧
      exec (.setdir sg .output) t = .next u ∧ pin u sg = some l

/-- SETDIR, SETLVL and RELEASEALL are idempotent on DIR, LAT and the model faults (R68). The spec marks this sentence
of R68 as derived. -/
def Obligations.SignalWritesAreIdempotent : Prop :=
  ∀ (i : Instr) (s : State),
    ((∃ sg d, i = .setdir sg d) ∨ (∃ sg l, i = .setlvl sg l) ∨ i = .releaseall) →
      ∃ t u : State, exec i s = .next t ∧ exec i t = .next u ∧ u.dir = t.dir ∧ u.lat = t.lat ∧ u.faults = t.faults

/-! ## The codec -/

/-- SENDBYTE (R130): with a bit count of 4 to 8 the low bits go out, least significant first; with any other the request
is rejected with BAD_BITCOUNT. -/
def Obligations.SendbyteClocksTheLowBitsOrIsRejected : Prop :=
  (∀ w : ReqWord, w.extractLsb' 0 8 = 0x10 →
      decodeRequest w = .ok (.sendbyte (w.extractLsb' 16 8) (w.extractLsb' 8 4))) ∧
    (∀ (v : BitVec 8) (n : BitVec 4) (s : State), 4 ≤ n.toNat → n.toNat ≤ 8 →
      exec (.sendbyte v n) s = .next (sent s (unitOut (byteBits v n.toNat)))) ∧
    ∀ (v : BitVec 8) (n : BitVec 4) (s : State), (n.toNat < 4 ∨ 8 < n.toNat) →
      exec (.sendbyte v n) s = .next (finished s s.dir s.lat s.faults [] ⟨true, 0x0002⟩)

/-- SENDWORD (R131, R93): start bit 0, fourteen data bits, stop bit 0, in two byte units. -/
def Obligations.SendwordClocksTheFrame : Prop :=
  (∀ w : ReqWord, w.extractLsb' 0 8 = 0x11 → decodeRequest w = .ok (.sendword (w.extractLsb' 16 16))) ∧
    ∀ (w : BitVec 16) (s : State), exec (.sendword w) s = .next (sent s (frameOut w))

/-- READBYTE (R133): eight levels, the first in bit 0; DATA is left an input. -/
def Obligations.ReadbyteReturnsEightLevels : Prop :=
  (∀ w : ReqWord, w.extractLsb' 0 8 = 0x12 → decodeRequest w = .ok .readbyte) ∧
    ∀ s : State, exec .readbyte s = .next (drawnOff 8 (finished s (dataInput s.dir) (readLatches s.lat)
      (clockMark s.dir s.faults) (unitIn (upcoming s 8)) ⟨false, BitVec.ofNat 16 (valueOf (upcoming s 8))⟩))

/-- READWORD (R134): sixteen levels, of which the 2nd to the 15th are the word. -/
def Obligations.ReadwordReturnsTheInnerFourteenLevels : Prop :=
  (∀ w : ReqWord, w.extractLsb' 0 8 = 0x13 → decodeRequest w = .ok .readword) ∧
    ∀ s : State, exec .readword s = .next (drawnOff 16 (finished s (dataInput s.dir) (readLatches s.lat)
      (clockMark s.dir s.faults) (unitIn ((upcoming s 16).take 8) ++ unitIn ((upcoming s 16).drop 8))
      ⟨false, BitVec.ofNat 16 (valueOf (((upcoming s 16).drop 1).take 14))⟩))

/-- The levels DATA shows at the pulses of SENDWORD(w), sampled by READWORD, give back `w[13:0]` (R135). The spec
marks R135 as derived. -/
def Obligations.ReadwordInvertsSendword : Prop :=
  ∀ (w : BitVec 16) (s r : State) (later : List Level),
    ∃ (t : State) (evs : List WireEvent), exec (.sendword w) s = .next t ∧ t.trace = s.trace ++ evs ∧
      ∃ u : State, exec .readword { r with draws := bitsOut s.dir.data s.lat.data evs ++ later } = .next u ∧
        u.responses = r.responses ++ [⟨false, w &&& 0x3FFF⟩] ∧ u.draws = later

/-- `byteOut` emits n pulses, each CLOCK HIGH, at least `T_CLKH`, CLOCK LOW, and no further rising or falling edge, and
ends with `LVL(DATA, LOW)`, DATA an output at LOW; `byteIn` emits 8 and leaves DATA an input (R136, R15). The spec marks
R136 as derived. -/
def Obligations.CodecUnitsPulseClockExactly : Prop :=
  (∀ (v : BitVec 8) (n : Nat) (s : State), 4 ≤ n → n ≤ 8 →
      ∃ evs : List WireEvent, (runItem (.byteOut v n) s).trace = s.trace ++ evs ++ [.lvl .data .low] ∧
        clockPulses (evs ++ [.lvl .data .low]) = n ∧
        (evs.filter fun e => e == .lvl .clock .high).length = n ∧
        (evs.filter fun e => e == .lvl .clock .low).length = n ∧
        (runItem (.byteOut v n) s).lat.clock = .low ∧
        (runItem (.byteOut v n) s).lat.data = .low ∧ (runItem (.byteOut v n) s).dir.data = .output) ∧
    ∀ s : State, ∃ evs : List WireEvent, (runItem .byteIn s).trace = s.trace ++ evs ∧ clockPulses evs = 8 ∧
      (evs.filter fun e => e == .lvl .clock .high).length = 8 ∧
      (evs.filter fun e => e == .lvl .clock .low).length = 8 ∧
      (runItem .byteIn s).lat.clock = .low ∧ (runItem .byteIn s).dir.data = .input

/-! ## The command sequencer -/

/-- SENDOP (R150, R92): any 6-bit value, the bits above it ignored. -/
def Obligations.SendopClocksAnySixBits : Prop :=
  (∀ w : ReqWord, w.extractLsb' 0 8 = 0x20 → decodeRequest w = .ok (.sendop (w.extractLsb' 16 6))) ∧
    ∀ (op : BitVec 6) (s : State), exec (.sendop op) s = .next (sent s (opcodeOut op))

/-- CONFIG, LOADPGM and LOADDATA send their opcode and then the frame of the word (R151, R152, R153). -/
def Obligations.LoadsSendOpcodeThenFrame : Prop :=
  (∀ w : ReqWord,
      (w.extractLsb' 0 8 = 0x21 → decodeRequest w = .ok (.config (w.extractLsb' 16 16))) ∧
        (w.extractLsb' 0 8 = 0x22 → decodeRequest w = .ok (.loadpgm (w.extractLsb' 16 16))) ∧
        (w.extractLsb' 0 8 = 0x23 → decodeRequest w = .ok (.loaddata (w.extractLsb' 16 16)))) ∧
    ∀ (w : BitVec 16) (s : State),
      exec (.config w) s = .next (sent s (opcodeOut 0x00 ++ frameOut w)) ∧
        exec (.loadpgm w) s = .next (sent s (opcodeOut 0x02 ++ frameOut w)) ∧
        exec (.loaddata w) s = .next (sent s (opcodeOut 0x03 ++ frameOut w))

/-- READPGM and READDATA send their opcode and then read a frame; DATA is left an input with its latch LOW (R154,
R155). -/
def Obligations.ReadsSendOpcodeThenReadFrame : Prop :=
  (∀ w : ReqWord,
      (w.extractLsb' 0 8 = 0x24 → decodeRequest w = .ok .readpgm) ∧
        (w.extractLsb' 0 8 = 0x25 → decodeRequest w = .ok .readdata)) ∧
    ∀ s : State,
      (∀ i op, (i = .readpgm ∧ op = 0x04 ∨ i = .readdata ∧ op = 0x05) →
        exec i s = .next (drawnOff 16 (finished s (dataInput s.dir) (sentLatches s.lat) (clockMark s.dir s.faults)
          (opcodeOut op ++ (unitIn ((upcoming s 16).take 8) ++ unitIn ((upcoming s 16).drop 8)))
          ⟨false, BitVec.ofNat 16 (valueOf (((upcoming s 16).drop 1).take 14))⟩)))

/-- RESETADDR sends 0x16 (R156). -/
def Obligations.ResetaddrSendsItsOpcode : Prop :=
  (∀ w : ReqWord, w.extractLsb' 0 8 = 0x26 → decodeRequest w = .ok .resetaddr) ∧
    ∀ s : State, exec .resetaddr s = .next (sent s (opcodeOut 0x16))

/-- INCADDR sends 0x06 exactly c times; c = 0 changes no signal and records no fault (R157). -/
def Obligations.IncaddrSendsItsOpcodeCountTimes : Prop :=
  (∀ w : ReqWord, w.extractLsb' 0 8 = 0x27 → decodeRequest w = .ok (.incaddr (w.extractLsb' 16 8))) ∧
    (∀ s : State, exec (.incaddr 0) s = .next (finished s s.dir s.lat s.faults [] okZero)) ∧
    ∀ (c : BitVec 8) (s : State), c ≠ 0 →
      exec (.incaddr c) s = .next (sent s (List.replicate c.toNat (opcodeOut 0x06)).flatten)

/-- PROGRAM (R158): MID is 0x18, 2 ms, 0x17 with no wait after it; ENHANCED is 0x08, 5 ms. -/
def Obligations.ProgramFollowsItsMode : Prop :=
  (∀ w : ReqWord, w.extractLsb' 0 8 = 0x28 → decodeRequest w = .ok (.program (modeOfBit (w.getLsbD 8)))) ∧
    ∀ s : State,
      exec (.program .mid) s = .next (sent s (opcodeOut 0x18 ++ [.wait 2000000] ++ opcodeOut 0x17)) ∧
        exec (.program .enhanced) s = .next (sent s (opcodeOut 0x08 ++ [.wait 5000000]))

/-- BULKPGM and BULKDATA (R159, R160). -/
def Obligations.BulkEraseFollowsItsMode : Prop :=
  (∀ w : ReqWord,
      (w.extractLsb' 0 8 = 0x29 → decodeRequest w = .ok (.bulkpgm (modeOfBit (w.getLsbD 8)))) ∧
        (w.extractLsb' 0 8 = 0x2A → decodeRequest w = .ok (.bulkdata (modeOfBit (w.getLsbD 8))))) ∧
    ∀ s : State,
      exec (.bulkpgm .mid) s = .next (sent s (opcodeOut 0x09 ++ [.wait 5000000] ++ opcodeOut 0x18 ++ [.wait 5000000] ++
          opcodeOut 0x17 ++ [.wait 5000000])) ∧
        exec (.bulkpgm .enhanced) s = .next (sent s (opcodeOut 0x09 ++ [.wait 5000000])) ∧
        exec (.bulkdata .mid) s = .next (sent s (opcodeOut 0x0B ++ [.wait 5000000] ++ opcodeOut 0x18 ++ [.wait 5000000] ++
          opcodeOut 0x17 ++ [.wait 5000000])) ∧
        exec (.bulkdata .enhanced) s = .next (sent s (opcodeOut 0x0B ++ [.wait 5000000]))

/-- A wire opcode travels as one opcode unit and answers nothing (R90, R91; that it is an instruction with this meaning
is the model's choice, log entry 6). -/
def Obligations.WireOpcodesTravelAsOneUnit : Prop :=
  ∀ (i : Instr) (op : BitVec 6) (s : State), encode i = .wire op → exec i s = .next (unitSent s (opcodeOut op))

/-- A request that pulses CLOCK records at most `DRIVE_INPUT(CLOCK)`, and records it exactly when CLOCK is an input and
some pulse is emitted (R264, R266, R112). -/
def Obligations.PulsingRecordsOnlyTheClockMark : Prop :=
  ∀ (i : Instr) (s : State), pulses i = true →
    ∃ t : State, exec i s = .next t ∧ t.dir.clock = s.dir.clock ∧
      t.faults = if pulseCount i = 0 then s.faults else clockMark s.dir s.faults

/-! ## The session sequencer -/

/-- ENTER (R181): reset first, from every state. -/
def Obligations.EnterAssertsResetThenPgm : Prop :=
  (∀ w : ReqWord, w.extractLsb' 0 8 = 0x30 → decodeRequest w = .ok .enter) ∧
    ∀ s : State,
      exec .enter s = .next (finished s ⟨.output, .output, .output, .output⟩
        ⟨.low, .low, Config.pgmAssertLevel, Config.resetAssertLevel⟩ s.faults
        [.relall, .drive .clock .low, .drive .data .low, .wait 1000000, .drive .reset Config.resetAssertLevel,
          .wait 1000000, .drive .pgm Config.pgmAssertLevel, .wait 1000000] okZero)

/-- EXIT (R182): the reverse order, then the release; CLOCK's and DATA's latches stay. -/
def Obligations.ExitDeassertsPgmThenReset : Prop :=
  (∀ w : ReqWord, w.extractLsb' 0 8 = 0x31 → decodeRequest w = .ok .exit) ∧
    ∀ s : State, ∃ p r : Level, p ≠ Config.pgmAssertLevel ∧ r ≠ Config.resetAssertLevel ∧
      exec .exit s = .next (finished s ⟨.input, .input, .input, .input⟩ { s.lat with pgm := p, reset := r } s.faults
        [.drive .pgm p, .wait 1000000, .drive .reset r, .wait 1000000, .relall] okZero)

/-- HWRESET changes nothing and emits nothing (R183, R263). -/
def Obligations.HwresetDoesNothing : Prop :=
  (∀ w : ReqWord, w.extractLsb' 0 8 = 0x32 → decodeRequest w = .ok .hwreset) ∧
    ∀ s : State, exec .hwreset s = .next (finished s s.dir s.lat s.faults [] okZero)

/-! ## Reset -/

/-- What reset leaves, at power-up and at every assertion of the reset input on an idle block (R260, R261). LAT is a free
value (log entry 3); that the ended run's observation is kept is the model's choice (log entry 9). -/
def Obligations.ResetReleasesAndStartsANewRun : Prop :=
  (dirRegister State.reset.dir = 0b1111 ∧ State.reset.busy = false ∧ State.reset.faults = FaultSet.empty ∧
      State.reset.trace = [] ∧ State.reset.responses = []) ∧
    ∀ (s : State) (k : Nat) (rest : List PortInput), s.busy = false → s.port = .reset k :: rest →
      ∃ t : State, step s = .next t ∧ dirRegister t.dir = 0b1111 ∧ t.busy = false ∧ t.faults = FaultSet.empty ∧
        t.trace = [] ∧ t.responses = [] ∧ t.port = rest ∧ t.draws = s.draws ∧
        t.ended = s.ended ++
          [⟨s.trace ++ [.relall], s.responses, ⟨.input, .input, .input, .input⟩, s.lat, s.faults⟩]

/-- Reset during an operation (R262): after k more of the events the operation would still emit, every signal is
released in the same step and the request gets no response. Where in the operation the reset falls (`k`) is log entry
10, and that the ended run is kept is log entry 9: the model's choices. -/
def Obligations.ResetAbortsTheOperationInProgress : Prop :=
  ∀ (s : State) (k : Nat) (rest : List PortInput), s.busy = true → s.port = .reset k :: rest →
    ∃ (t : State) (evs : List WireEvent) (o : Observation), step s = .next t ∧
      (runItems s.items s).trace = s.trace ++ evs ∧
      t.ended = s.ended ++ [o] ∧ o.trace = s.trace ++ evs.take k ++ [.relall] ∧ o.responses = s.responses ∧
      o.dir = ⟨.input, .input, .input, .input⟩ ∧
      t.dir = ⟨.input, .input, .input, .input⟩ ∧ t.busy = false ∧ t.items = [] ∧ t.faults = FaultSet.empty ∧
      t.responses = [] ∧ t.port = rest

/-- A model fault is never cleared within a run, a reset starts a run with none, and a fault changes no later event,
response or state: two states that differ in their model faults only step to states that differ in nothing but their
model faults and the model faults recorded of the runs that have ended (R234). -/
def Obligations.FaultsAreMarksAndStayUntilReset : Prop :=
  (∀ (s t : State) (m : ModelFault), (∀ k rest, s.port ≠ .reset k :: rest) → step s = .next t →
      hasFault s.faults m = true → hasFault t.faults m = true) ∧
    (∀ (s t : State) (k : Nat) (rest : List PortInput), s.port = .reset k :: rest → step s = .next t →
      t.faults = FaultSet.empty) ∧
    ∀ (s t : State) (f : FaultSet), step s = .next t →
      ∃ u : State, step { s with faults := f } = .next u ∧
        u = { t with faults := u.faults, ended := u.ended } ∧
        u.ended.map faultsBlanked = t.ended.map faultsBlanked

/-! ## Whole-machine rules -/

/-- Every step keeps: the run's trace accounts for DIR, LAT and the model faults (R34, R42). The latches a reset
leaves are log entry 3. -/
def Obligations.TraceAccountsForSignalState : Prop :=
  ∀ s t : State, TraceAccounts s → step s = .next t → TraceAccounts t

/-- It holds at reset. -/
def Obligations.TraceAccountsAtReset : Prop := TraceAccounts State.reset

/-- Every step keeps: nothing but DIR, LAT and the model faults persists between requests (R30, R35). -/
def Obligations.NothingTransientPersists : Prop :=
  ∀ s t : State, QuietWhenIdle s → step s = .next t → QuietWhenIdle t

/-- It holds at reset. The reset values of the transient fields are the model's (log entry 8). -/
def Obligations.NothingTransientAtReset : Prop := QuietWhenIdle State.reset

/-- Every step keeps: the samples of an operation in progress add up to what its response needs (R119, R133, R134). -/
def Obligations.SamplesAddUpToTheResponse : Prop :=
  ∀ s t : State, SamplesAddUp s → step s = .next t → SamplesAddUp t

/-- It holds at reset. -/
def Obligations.SamplesAddUpAtReset : Prop := SamplesAddUp State.reset

/-- What an earlier request or a reset left in the transient fields reaches no result (R35). The spec marks this
sentence of R35 as derived. -/
def Obligations.LeftoverBuffersNeverReachAResult : Prop :=
  ∀ (i : Instr) (w : ReqWord) (s : State) (its : List Item) (bs : List Level) (k : RspKind),
    encode i = .request w → exec i { s with items := its, samples := bs, rspKind := k } = exec i s

/-- A request followed unit by unit ends in the same state as the request run in one step, when no reset falls inside
it (R64, R66). The two granularities are the model's (log entry 1), and so is the answer to a rejected request in the
step that accepts it (log entry 21). -/
def Obligations.UnitByUnitRefinesOneStep : Prop :=
  ∀ (s : State) (w : ReqWord) (rest : List PortInput),
    s.busy = false → QuietWhenIdle s → (∀ k r, rest ≠ .reset k :: r) →
      ∃ (k : Nat) (t : State), step { s with port := .request w :: rest } = .next t ∧
        Host.Core.run core k { s with port := .requestStepwise w :: rest } = .next t

/-- No sampled level changes the events that follow it, the signal state or the model faults: with other draws an
instruction emits the same events but for the levels drawn (R163, R278). The spec marks this sentence of R163 as
derived. -/
def Obligations.SampledLevelsNeverSteerTheBlock : Prop :=
  ∀ (i : Instr) (s : State) (draws : List Level) (drawn : Nat),
    ∃ t u : State, exec i s = .next t ∧ exec i { s with draws := draws, drawn := drawn } = .next u ∧
      t.trace.map shapeOf = u.trace.map shapeOf ∧ t.dir = u.dir ∧ t.lat = u.lat ∧ t.faults = u.faults ∧
      t.responses.map Response.err = u.responses.map Response.err

/-- The table of events, CLOCK pulses and minimum waits (R277, R65), for every instruction. The spec marks the table
as derived. -/
def Obligations.EventsPulsesAndWaitsFollowTheTable : Prop :=
  ∀ (i : Instr) (s : State), ∃ (t : State) (evs : List WireEvent), exec i s = .next t ∧ t.trace = s.trace ++ evs ∧
    evs.length = eventCount i ∧ clockPulses evs = pulseCount i ∧ waitTotal evs = minimumWait i

/-- No request emits more than 6885 events (R270, R278). The spec marks R278 as derived. -/
def Obligations.NoRequestExceeds6885Events : Prop :=
  ∀ (s : State) (w : ReqWord) (rest : List PortInput), s.busy = false → s.port = .request w :: rest →
    ∃ (t : State) (evs : List WireEvent), step s = .next t ∧ t.trace = s.trace ++ evs ∧ evs.length ≤ 6885

/-- Time stamps that keep R14 and R276 put the response at least the minimum total wait after the instruction's first
event (R277); that a WAIT takes no stamp of its own is the model's reading (log entry 11). -/
def Obligations.ResponseWaitsForEveryDelay : Prop :=
  ∀ (i : Instr) (s : State), ∃ (t : State) (evs : List WireEvent), exec i s = .next t ∧ t.trace = s.trace ++ evs ∧
    ∀ (first done : Nat) (stamps : List Nat), timingKept none 0 evs (first :: stamps) done = true →
      first + minimumWait i ≤ done

/-- With CLOCK LOW before it, what pulses CLOCK changes DATA only while CLOCK is LOW, samples it only while CLOCK is
HIGH, moves neither by a DRIVE, a RELALL or a DIR of CLOCK, and leaves CLOCK LOW (R274, R275). The spec marks these
sentences of R274 and R275 as derived. -/
def Obligations.DataMovesOnlyWhileClockIsLow : Prop :=
  ∀ (i : Instr) (s : State), pulses i = true → s.lat.clock = .low →
    ∃ (t : State) (evs : List WireEvent), exec i s = .next t ∧ t.trace = s.trace ++ evs ∧
      dataOrdered .low evs = true ∧ t.lat.clock = .low

/-! ## The dispatcher (informative, outside the block) -/

/-- `F` with count k issues k times READPGM and INCADDR 1: the block emits their events and gives their responses, and
the link carries the 2k bytes of the words, low byte first, and one prompt (R213, R212, R223). The dispatcher's model is
log entry 14, the levels sampled are log entry 4; no reset falls inside the run (log entry 20). -/
def Obligations.FetchReadsCountWords : Prop :=
  ∀ (b : State) (lo hi : Byte) (link out : List Byte) (n : Nat), b.busy = false →
    requestsOf .cF [lo, hi] = (List.replicate lo.toNat [Instr.readpgm, .incaddr 1]).flatten ∧
      ∃ (a : Adapter) (reads : List (List Level)),
        adapterRun (2 * lo.toNat + 8) ⟨b, 0x46 :: lo :: hi :: link, out, .idle, n⟩ = a ∧
        a.phase = .idle ∧ a.link = link ∧
        reads.length = lo.toNat ∧ (∀ ls ∈ reads, ls.length = 16) ∧ reads.flatten = upcoming b (16 * lo.toNat) ∧
        a.block.trace = b.trace ++ reads.flatMap fetchEvents ∧
        a.block.responses = b.responses ++ reads.flatMap (fun ls => [⟨false, wordRead ls⟩, okZero]) ∧
        a.out = out ++ reads.flatMap (fun ls => [(wordRead ls).extractLsb' 0 8, (wordRead ls).extractLsb' 8 8]) ++
          [Config.promptByte]

/-- An unknown command byte issues no request and returns the error marker and the prompt (R222, R223). The dispatcher's
model is log entry 14, its path for an unknown byte log entry 19; no reset falls inside the run (log entry 20). -/
def Obligations.UnknownCommandTouchesNoSignal : Prop :=
  ∀ (b : State) (c : Byte) (link out : List Byte) (n : Nat), commandOfByte c = none →
    adapterRun 4 ⟨b, c :: link, out, .idle, n⟩ =
      ⟨b, link, out ++ [Config.errMarker.1, Config.errMarker.2, Config.promptByte], .idle, n⟩
end

