-- ==== Sys2Proof/Laws/Decode.lean ====
section
/-! SUPPORT. The fields of a request word: what the encoder packs, the decoder's fields take out. -/

namespace Sys2Proof

@[simp] theorem opField_requestWord (d : BitVec 16) (a : BitVec 4) (o : BitVec 8) : opField (requestWord d a o) = o := by
  ext k hk
  have : (requestWord d a o).getLsbD k = o.getLsbD k := by
    unfold requestWord
    erw [BitVec.getLsbD_append]
    simp [hk]
  simpa [opField, hk] using this

@[simp] theorem aField_requestWord (d : BitVec 16) (a : BitVec 4) (o : BitVec 8) : aField (requestWord d a o) = a := by
  ext k hk
  have : (requestWord d a o).getLsbD (8 + k) = a.getLsbD k := by
    unfold requestWord
    erw [BitVec.getLsbD_append, BitVec.getLsbD_append]
    simp [hk]
  simpa [aField, hk] using this

@[simp] theorem dField_requestWord (d : BitVec 16) (a : BitVec 4) (o : BitVec 8) : dField (requestWord d a o) = d := by
  ext k hk
  have h1 : ¬ 16 + k < 8 := by omega
  have h2 : ¬ 16 + k - 8 < 4 := by omega
  have h3 : ¬ 16 + k - 8 - 4 < 4 := by omega
  have : (requestWord d a o).getLsbD (16 + k) = d.getLsbD k := by
    unfold requestWord
    erw [BitVec.getLsbD_append, BitVec.getLsbD_append, BitVec.getLsbD_append]
    simp only [h1, h2, h3, if_false]
    congr 1
    omega
  simpa [dField, hk] using this

/-- A field packed under zeros comes out as it went in. -/
theorem extractLsb'_zero_append (n m : Nat) (v : BitVec m) : ((0 : BitVec n) ++ v).extractLsb' 0 m = v := by
  ext k hk
  simp [BitVec.getLsbD_append, hk]

/-- A field of a field is a field of the word. -/
theorem extractLsb'_extractLsb' {n : Nat} (w : BitVec n) (a l b m : Nat) (h : b + m ≤ l) :
    (w.extractLsb' a l).extractLsb' b m = w.extractLsb' (a + b) m := by
  ext k hk
  have : b + k < l := by omega
  simp [this, Nat.add_assoc]

end Sys2Proof
end

