-- ==== Sys2Proof/Laws/State.lean ====
section
/-! SUPPORT. The small lemmas of State's updates: one per field per update, so that no later proof unfolds a record
update. -/

namespace Sys2Proof.Machine

/-! ## Registers of one value per signal -/

@[simp] theorem perGet_perSet_same {α : Type} (r : PerSignal α) (sg : Signal) (v : α) :
    perGet (perSet r sg v) sg = v := by cases sg <;> rfl

theorem perGet_perSet_other {α : Type} (r : PerSignal α) {sg sg' : Signal} (v : α) (h : sg' ≠ sg) :
    perGet (perSet r sg v) sg' = perGet r sg' := by
  cases sg <;> cases sg' <;> first | rfl | exact absurd rfl h

@[simp] theorem perSet_perSet_same {α : Type} (r : PerSignal α) (sg : Signal) (v v' : α) :
    perSet (perSet r sg v) sg v' = perSet r sg v' := by cases sg <;> rfl

@[simp] theorem perSet_perGet {α : Type} (r : PerSignal α) (sg : Signal) : perSet r sg (perGet r sg) = r := by
  cases sg <;> rfl

/-! ## accept -/

@[simp] theorem accept_dir (s : State) : (accept s).dir = s.dir := rfl

@[simp] theorem accept_lat (s : State) : (accept s).lat = s.lat := rfl

@[simp] theorem accept_busy (s : State) : (accept s).busy = true := rfl

@[simp] theorem accept_faults (s : State) : (accept s).faults = s.faults := rfl

@[simp] theorem accept_items (s : State) : (accept s).items = s.items := rfl

@[simp] theorem accept_samples (s : State) : (accept s).samples = [] := rfl

@[simp] theorem accept_rspKind (s : State) : (accept s).rspKind = s.rspKind := rfl

@[simp] theorem accept_trace (s : State) : (accept s).trace = s.trace := rfl

@[simp] theorem accept_responses (s : State) : (accept s).responses = s.responses := rfl

@[simp] theorem accept_ended (s : State) : (accept s).ended = s.ended := rfl

@[simp] theorem accept_port (s : State) : (accept s).port = s.port := rfl

@[simp] theorem accept_draws (s : State) : (accept s).draws = s.draws := rfl

@[simp] theorem accept_drawn (s : State) : (accept s).drawn = s.drawn := rfl

@[simp] theorem accept_resets (s : State) : (accept s).resets = s.resets := rfl

/-! ## answer -/

@[simp] theorem answer_dir (rs : List Response) (s : State) : (answer rs s).dir = s.dir := rfl

@[simp] theorem answer_lat (rs : List Response) (s : State) : (answer rs s).lat = s.lat := rfl

@[simp] theorem answer_busy (rs : List Response) (s : State) : (answer rs s).busy = false := rfl

@[simp] theorem answer_faults (rs : List Response) (s : State) : (answer rs s).faults = s.faults := rfl

@[simp] theorem answer_items (rs : List Response) (s : State) : (answer rs s).items = [] := rfl

@[simp] theorem answer_samples (rs : List Response) (s : State) : (answer rs s).samples = [] := rfl

@[simp] theorem answer_rspKind (rs : List Response) (s : State) : (answer rs s).rspKind = .silent := rfl

@[simp] theorem answer_trace (rs : List Response) (s : State) : (answer rs s).trace = s.trace := rfl

@[simp] theorem answer_responses (rs : List Response) (s : State) : (answer rs s).responses = s.responses ++ rs := rfl

@[simp] theorem answer_ended (rs : List Response) (s : State) : (answer rs s).ended = s.ended := rfl

@[simp] theorem answer_port (rs : List Response) (s : State) : (answer rs s).port = s.port := rfl

@[simp] theorem answer_draws (rs : List Response) (s : State) : (answer rs s).draws = s.draws := rfl

@[simp] theorem answer_drawn (rs : List Response) (s : State) : (answer rs s).drawn = s.drawn := rfl

@[simp] theorem answer_resets (rs : List Response) (s : State) : (answer rs s).resets = s.resets := rfl

/-! ## resetBlock -/

@[simp] theorem resetBlock_dir (s : State) : (resetBlock s).dir = allInput := rfl

@[simp] theorem resetBlock_lat (s : State) : (resetBlock s).lat = Config.resetLatch (s.resets + 1) := rfl

@[simp] theorem resetBlock_busy (s : State) : (resetBlock s).busy = false := rfl

@[simp] theorem resetBlock_faults (s : State) : (resetBlock s).faults = FaultSet.empty := rfl

@[simp] theorem resetBlock_items (s : State) : (resetBlock s).items = [] := rfl

@[simp] theorem resetBlock_samples (s : State) : (resetBlock s).samples = [] := rfl

@[simp] theorem resetBlock_rspKind (s : State) : (resetBlock s).rspKind = .silent := rfl

@[simp] theorem resetBlock_trace (s : State) : (resetBlock s).trace = [] := rfl

@[simp] theorem resetBlock_responses (s : State) : (resetBlock s).responses = [] := rfl

@[simp] theorem resetBlock_ended (s : State) : (resetBlock s).ended = s.ended ++ [observe (emit .relall s)] := rfl

@[simp] theorem resetBlock_port (s : State) : (resetBlock s).port = s.port := rfl

@[simp] theorem resetBlock_draws (s : State) : (resetBlock s).draws = s.draws := rfl

@[simp] theorem resetBlock_drawn (s : State) : (resetBlock s).drawn = s.drawn := rfl

@[simp] theorem resetBlock_resets (s : State) : (resetBlock s).resets = s.resets + 1 := rfl

/-! ## afterDraw -/

@[simp] theorem afterDraw_dir (s : State) : (afterDraw s).dir = s.dir := rfl

@[simp] theorem afterDraw_lat (s : State) : (afterDraw s).lat = s.lat := rfl

@[simp] theorem afterDraw_busy (s : State) : (afterDraw s).busy = s.busy := rfl

@[simp] theorem afterDraw_faults (s : State) : (afterDraw s).faults = s.faults := rfl

@[simp] theorem afterDraw_items (s : State) : (afterDraw s).items = s.items := rfl

@[simp] theorem afterDraw_samples (s : State) : (afterDraw s).samples = s.samples := rfl

@[simp] theorem afterDraw_rspKind (s : State) : (afterDraw s).rspKind = s.rspKind := rfl

@[simp] theorem afterDraw_trace (s : State) : (afterDraw s).trace = s.trace := rfl

@[simp] theorem afterDraw_responses (s : State) : (afterDraw s).responses = s.responses := rfl

@[simp] theorem afterDraw_ended (s : State) : (afterDraw s).ended = s.ended := rfl

@[simp] theorem afterDraw_port (s : State) : (afterDraw s).port = s.port := rfl

@[simp] theorem afterDraw_resets (s : State) : (afterDraw s).resets = s.resets := rfl

@[simp] theorem afterDraw_cons (s : State) (b : Level) (bs : List Level) (h : s.draws = b :: bs) :
    (afterDraw s).draws = bs ∧ (afterDraw s).drawn = s.drawn := by simp [afterDraw, h]

@[simp] theorem afterDraw_nil (s : State) (h : s.draws = []) :
    (afterDraw s).draws = [] ∧ (afterDraw s).drawn = s.drawn + 1 := by simp [afterDraw, h]

@[simp] theorem drawLevel_cons (s : State) (b : Level) (bs : List Level) (h : s.draws = b :: bs) : drawLevel s = b := by
  simp [drawLevel, h]

@[simp] theorem drawLevel_nil (s : State) (h : s.draws = []) : drawLevel s = Config.freeLevel s.drawn := by
  simp [drawLevel, h]

/-! ## emit: what no event changes -/

@[simp] theorem emit_busy (a : Action) (s : State) : (emit a s).busy = s.busy := by cases a <;> simp [emit]

@[simp] theorem emit_items (a : Action) (s : State) : (emit a s).items = s.items := by cases a <;> simp [emit]

@[simp] theorem emit_rspKind (a : Action) (s : State) : (emit a s).rspKind = s.rspKind := by cases a <;> simp [emit]

@[simp] theorem emit_responses (a : Action) (s : State) : (emit a s).responses = s.responses := by cases a <;> simp [emit]

@[simp] theorem emit_ended (a : Action) (s : State) : (emit a s).ended = s.ended := by cases a <;> simp [emit]

@[simp] theorem emit_port (a : Action) (s : State) : (emit a s).port = s.port := by cases a <;> simp [emit]

@[simp] theorem emit_resets (a : Action) (s : State) : (emit a s).resets = s.resets := by cases a <;> simp [emit]

/-! ## emit: event by event (R111 to R116) -/

@[simp] theorem emit_dir_dir (sg : Signal) (d : Dir) (s : State) : (emit (.dir sg d) s).dir = perSet s.dir sg d := rfl

@[simp] theorem emit_dir_lat (sg : Signal) (d : Dir) (s : State) : (emit (.dir sg d) s).lat = s.lat := rfl

@[simp] theorem emit_dir_faults (sg : Signal) (d : Dir) (s : State) : (emit (.dir sg d) s).faults = s.faults := rfl

@[simp] theorem emit_dir_samples (sg : Signal) (d : Dir) (s : State) : (emit (.dir sg d) s).samples = s.samples := rfl

@[simp] theorem emit_dir_trace (sg : Signal) (d : Dir) (s : State) : (emit (.dir sg d) s).trace = s.trace ++ [.dir sg d] := rfl

@[simp] theorem emit_dir_draws (sg : Signal) (d : Dir) (s : State) : (emit (.dir sg d) s).draws = s.draws := rfl

@[simp] theorem emit_dir_drawn (sg : Signal) (d : Dir) (s : State) : (emit (.dir sg d) s).drawn = s.drawn := rfl

@[simp] theorem emit_lvl_dir (sg : Signal) (l : Level) (s : State) : (emit (.lvl sg l) s).dir = s.dir := rfl

@[simp] theorem emit_lvl_lat (sg : Signal) (l : Level) (s : State) : (emit (.lvl sg l) s).lat = perSet s.lat sg l := rfl

@[simp] theorem emit_lvl_faults (sg : Signal) (l : Level) (s : State) : (emit (.lvl sg l) s).faults = markLvl s.dir sg s.faults := rfl

@[simp] theorem emit_lvl_samples (sg : Signal) (l : Level) (s : State) : (emit (.lvl sg l) s).samples = s.samples := rfl

@[simp] theorem emit_lvl_trace (sg : Signal) (l : Level) (s : State) : (emit (.lvl sg l) s).trace = s.trace ++ [.lvl sg l] := rfl

@[simp] theorem emit_lvl_draws (sg : Signal) (l : Level) (s : State) : (emit (.lvl sg l) s).draws = s.draws := rfl

@[simp] theorem emit_lvl_drawn (sg : Signal) (l : Level) (s : State) : (emit (.lvl sg l) s).drawn = s.drawn := rfl

@[simp] theorem emit_drive_dir (sg : Signal) (l : Level) (s : State) : (emit (.drive sg l) s).dir = perSet s.dir sg .output := rfl

@[simp] theorem emit_drive_lat (sg : Signal) (l : Level) (s : State) : (emit (.drive sg l) s).lat = perSet s.lat sg l := rfl

@[simp] theorem emit_drive_faults (sg : Signal) (l : Level) (s : State) : (emit (.drive sg l) s).faults = s.faults := rfl

@[simp] theorem emit_drive_samples (sg : Signal) (l : Level) (s : State) : (emit (.drive sg l) s).samples = s.samples := rfl

@[simp] theorem emit_drive_trace (sg : Signal) (l : Level) (s : State) : (emit (.drive sg l) s).trace = s.trace ++ [.drive sg l] := rfl

@[simp] theorem emit_drive_draws (sg : Signal) (l : Level) (s : State) : (emit (.drive sg l) s).draws = s.draws := rfl

@[simp] theorem emit_drive_drawn (sg : Signal) (l : Level) (s : State) : (emit (.drive sg l) s).drawn = s.drawn := rfl

@[simp] theorem emit_relall_dir (s : State) : (emit .relall s).dir = allInput := rfl

@[simp] theorem emit_relall_lat (s : State) : (emit .relall s).lat = s.lat := rfl

@[simp] theorem emit_relall_faults (s : State) : (emit .relall s).faults = s.faults := rfl

@[simp] theorem emit_relall_samples (s : State) : (emit .relall s).samples = s.samples := rfl

@[simp] theorem emit_relall_trace (s : State) : (emit .relall s).trace = s.trace ++ [.relall] := rfl

@[simp] theorem emit_relall_draws (s : State) : (emit .relall s).draws = s.draws := rfl

@[simp] theorem emit_relall_drawn (s : State) : (emit .relall s).drawn = s.drawn := rfl

@[simp] theorem emit_wait_dir (t : Nat) (s : State) : (emit (.wait t) s).dir = s.dir := rfl

@[simp] theorem emit_wait_lat (t : Nat) (s : State) : (emit (.wait t) s).lat = s.lat := rfl

@[simp] theorem emit_wait_faults (t : Nat) (s : State) : (emit (.wait t) s).faults = s.faults := rfl

@[simp] theorem emit_wait_samples (t : Nat) (s : State) : (emit (.wait t) s).samples = s.samples := rfl

@[simp] theorem emit_wait_trace (t : Nat) (s : State) : (emit (.wait t) s).trace = s.trace ++ [.wait t] := rfl

@[simp] theorem emit_wait_draws (t : Nat) (s : State) : (emit (.wait t) s).draws = s.draws := rfl

@[simp] theorem emit_wait_drawn (t : Nat) (s : State) : (emit (.wait t) s).drawn = s.drawn := rfl

@[simp] theorem emit_sample_dir (sg : Signal) (s : State) : (emit (.sample sg) s).dir = s.dir := rfl

@[simp] theorem emit_sample_lat (sg : Signal) (s : State) : (emit (.sample sg) s).lat = s.lat := rfl

@[simp] theorem emit_sample_faults (sg : Signal) (s : State) : (emit (.sample sg) s).faults = markSample s.dir sg s.faults := rfl

@[simp] theorem emit_sample_samples (sg : Signal) (s : State) : (emit (.sample sg) s).samples = s.samples ++ [drawLevel s] := rfl

@[simp] theorem emit_sample_trace (sg : Signal) (s : State) : (emit (.sample sg) s).trace = s.trace ++ [.sample sg (drawLevel s)] := rfl

@[simp] theorem emit_sample_draws (sg : Signal) (s : State) : (emit (.sample sg) s).draws = (afterDraw s).draws := rfl

@[simp] theorem emit_sample_drawn (sg : Signal) (s : State) : (emit (.sample sg) s).drawn = (afterDraw s).drawn := rfl

/-! ## emit: the transient and outside fields pass through -/

theorem emit_with_port (a : Action) (s : State) (x : List PortInput) :
    emit a { s with port := x } = { emit a s with port := x } := by cases a <;> rfl

theorem emit_with_items (a : Action) (s : State) (x : List Item) :
    emit a { s with items := x } = { emit a s with items := x } := by cases a <;> rfl

theorem emit_with_rspKind (a : Action) (s : State) (x : RspKind) :
    emit a { s with rspKind := x } = { emit a s with rspKind := x } := by cases a <;> rfl

theorem emit_with_busy (a : Action) (s : State) (x : Bool) :
    emit a { s with busy := x } = { emit a s with busy := x } := by cases a <;> rfl

theorem emit_with_responses (a : Action) (s : State) (x : List Response) :
    emit a { s with responses := x } = { emit a s with responses := x } := by cases a <;> rfl

/-- One event appends itself to the trace. -/
theorem emit_trace (a : Action) (s : State) : ∃ e, (emit a s).trace = s.trace ++ [e] ∧ shapeOf e = a := by
  cases a <;> exact ⟨_, rfl, rfl⟩

end Sys2Proof.Machine
end

