-- ==== Sys2Proof/Laws/Ops.lean ====
section
/-! SUPPORT. What the shared operations can do, said once: sequences of events, the codec's units, a request carried
out. Proofs cite these instead of unfolding the operations. -/

namespace Sys2Proof.Machine

/-! ## Sequences -/

@[simp] theorem emitAll_nil (s : State) : emitAll [] s = s := rfl

@[simp] theorem emitAll_cons (a : Action) (acts : List Action) (s : State) :
    emitAll (a :: acts) s = emitAll acts (emit a s) := rfl

@[simp] theorem emitAll_append (xs ys : List Action) (s : State) :
    emitAll (xs ++ ys) s = emitAll ys (emitAll xs s) := by
  induction xs generalizing s with
  | nil => rfl
  | cons x xs ih => simp [ih]

@[simp] theorem runItems_nil (s : State) : runItems [] s = s := rfl

@[simp] theorem runItems_cons (it : Item) (its : List Item) (s : State) :
    runItems (it :: its) s = runItems its (runItem it s) := rfl

/-- Units one after another are their events one after another. -/
theorem runItems_eq_emitAll (its : List Item) (s : State) : runItems its s = emitAll (itemsActions its) s := by
  induction its generalizing s with
  | nil => rfl
  | cons it its ih => simp [ih, itemsActions, runItem]

/-- What no sequence of events changes. -/
theorem emitAll_frame (acts : List Action) (s : State) :
    (emitAll acts s).busy = s.busy ∧ (emitAll acts s).items = s.items ∧ (emitAll acts s).rspKind = s.rspKind ∧
      (emitAll acts s).responses = s.responses ∧ (emitAll acts s).ended = s.ended ∧ (emitAll acts s).port = s.port ∧
      (emitAll acts s).resets = s.resets := by
  induction acts generalizing s with
  | nil => simp
  | cons a acts ih => simpa using ih (emit a s)

theorem emitAll_with_port (acts : List Action) (s : State) (x : List PortInput) :
    emitAll acts { s with port := x } = { emitAll acts s with port := x } := by
  induction acts generalizing s with
  | nil => rfl
  | cons a acts ih => rw [emitAll_cons, emit_with_port, ih, emitAll_cons]

theorem emitAll_with_items (acts : List Action) (s : State) (x : List Item) :
    emitAll acts { s with items := x } = { emitAll acts s with items := x } := by
  induction acts generalizing s with
  | nil => rfl
  | cons a acts ih => rw [emitAll_cons, emit_with_items, ih, emitAll_cons]

theorem emitAll_with_rspKind (acts : List Action) (s : State) (x : RspKind) :
    emitAll acts { s with rspKind := x } = { emitAll acts s with rspKind := x } := by
  induction acts generalizing s with
  | nil => rfl
  | cons a acts ih => rw [emitAll_cons, emit_with_rspKind, ih, emitAll_cons]

/-- A sequence of actions appends exactly its own events to the trace, in order (R70). -/
theorem emitAll_trace (acts : List Action) (s : State) :
    ∃ evs, (emitAll acts s).trace = s.trace ++ evs ∧ evs.map shapeOf = acts := by
  induction acts generalizing s with
  | nil => exact ⟨[], by simp⟩
  | cons a acts ih =>
    obtain ⟨e, he, hs⟩ := emit_trace a s
    obtain ⟨evs, hev, hss⟩ := ih (emit a s)
    exact ⟨e :: evs, by simp [hev, he], by simp [hs, hss]⟩

/-! ## Marks -/

@[simp] theorem addFault_addFault_same (f : FaultSet) (m : ModelFault) : addFault (addFault f m) m = addFault f m := by
  cases m <;> simp [addFault]

/-- The mark of an event on the same signal is set once. -/
@[simp] theorem markLvl_markLvl_same (d : PerSignal Dir) (sg : Signal) (f : FaultSet) :
    markLvl d sg (markLvl d sg f) = markLvl d sg f := by
  unfold markLvl
  cases perGet d sg <;> simp

theorem markLvl_output {d : PerSignal Dir} {sg : Signal} (h : perGet d sg = .output) (f : FaultSet) :
    markLvl d sg f = f := by simp [markLvl, h]

theorem markSample_input {d : PerSignal Dir} {sg : Signal} (h : perGet d sg = .input) (f : FaultSet) :
    markSample d sg f = f := by simp [markSample, h]

/-- A mark never takes a fault away (R234). -/
theorem hasFault_addFault (f : FaultSet) (m m' : ModelFault) (h : hasFault f m' = true) :
    hasFault (addFault f m) m' = true := by
  cases m with
  | driveInput sg => cases m' with
    | driveInput sg' => cases sg <;> cases sg' <;> simp_all [hasFault, addFault, perGet, perSet]
    | sampleOutput sg' => simpa [hasFault, addFault] using h
  | sampleOutput sg => cases m' with
    | driveInput sg' => simpa [hasFault, addFault] using h
    | sampleOutput sg' => cases sg <;> cases sg' <;> simp_all [hasFault, addFault, perGet, perSet]

theorem emit_keeps_faults (a : Action) (s : State) (m : ModelFault) (h : hasFault s.faults m = true) :
    hasFault (emit a s).faults m = true := by
  cases a with
  | lvl sg l => simp only [emit_lvl_faults, markLvl]; split <;> simp_all [hasFault_addFault]
  | sample sg => simp only [emit_sample_faults, markSample]; split <;> simp_all [hasFault_addFault]
  | dir sg d => simpa using h
  | drive sg l => simpa using h
  | relall => simpa using h
  | wait t => simpa using h

theorem emitAll_keeps_faults (acts : List Action) (s : State) (m : ModelFault) (h : hasFault s.faults m = true) :
    hasFault (emitAll acts s).faults m = true := by
  induction acts generalizing s with
  | nil => exact h
  | cons a acts ih => exact ih _ (emit_keeps_faults a s m h)

/-- Faults never steer: other faults before give other faults after, and nothing else (R234). -/
theorem emitAll_with_faults (acts : List Action) (s : State) (f : FaultSet) :
    ∃ g, emitAll acts { s with faults := f } = { emitAll acts s with faults := g } := by
  induction acts generalizing s f with
  | nil => exact ⟨f, rfl⟩
  | cons a acts ih =>
    obtain ⟨g, hg⟩ : ∃ g, emit a { s with faults := f } = { emit a s with faults := g } := by
      cases a <;> exact ⟨_, rfl⟩
    rw [emitAll_cons, hg]
    exact ih _ _

/-! ## Sending -/

/-- The events of the pulses that carry `bits` (R130). -/
def pulseEvents (bits : List Bool) : List WireEvent :=
  bits.flatMap fun b => [.lvl .data (levelOfBit b), .lvl .clock .high, .wait tClkh, .lvl .clock .low]

@[simp] theorem pulseEvents_nil : pulseEvents [] = [] := rfl

@[simp] theorem pulseEvents_cons (b : Bool) (bs : List Bool) :
    pulseEvents (b :: bs) =
      [.lvl .data (levelOfBit b), .lvl .clock .high, .wait tClkh, .lvl .clock .low] ++ pulseEvents bs := rfl

/-- The low `n` bits of a byte, the least significant first. -/
def lowBits (x : BitVec 8) (n : Nat) : List Bool := (List.range n).map x.getLsbD

theorem lowBits_succ (x : BitVec 8) (n : Nat) : lowBits x (n + 1) = x.getLsbD 0 :: lowBits (x >>> 1) n := by
  simp [lowBits, List.range_succ_eq_map, Function.comp_def, Nat.add_comm]

/-- `repeat n` of `byteOut`: with DATA an output, the pulses carry the low `n` bits and CLOCK ends LOW (R130). -/
theorem emitAll_bitsOut (n : Nat) (x : BitVec 8) (s : State) (hd : s.dir.data = .output) (l : Level) :
    emitAll (bitsOutActions (n + 1) x ++ [.lvl .data l]) s =
      { s with
        lat := { s.lat with clock := .low, data := l }
        faults := markLvl s.dir .clock s.faults
        trace := s.trace ++ pulseEvents (lowBits x (n + 1)) ++ [.lvl .data l] } := by
  have hd' : perGet s.dir .data = .output := hd
  induction n generalizing x s with
  | zero =>
    simp [bitsOutActions, bitOutActions, emit, lowBits, perSet, markLvl_output hd', pulseEvents]
  | succ n ih =>
    rw [bitsOutActions, List.append_assoc, emitAll_append, ih]
    · simp [bitOutActions, emit, perSet, markLvl_output hd', lowBits_succ x]
    · simpa [bitOutActions, emit] using hd
    · simpa [bitOutActions, emit] using hd'

/-- What a byte unit out leaves (R130, R136): DATA an output at LOW, CLOCK LOW, the mark if CLOCK was an input. -/
theorem emitAll_byteOut (n : Nat) (x : BitVec 8) (s : State) :
    emitAll (byteOutActions x (n + 1)) s =
      { s with
        dir := { s.dir with data := .output }
        lat := { s.lat with clock := .low, data := .low }
        faults := markLvl s.dir .clock s.faults
        trace := s.trace ++ .dir .data .output :: (pulseEvents (lowBits x (n + 1)) ++ [.lvl .data .low]) } := by
  rw [byteOutActions, emitAll_cons, emitAll_bitsOut _ _ _ rfl]
  simp [emit, perSet, markLvl, perGet]

/-- What an opcode unit leaves (R91, R150). -/
theorem emitAll_opOut (op : BitVec 6) (s : State) :
    emitAll (opOutActions op) s =
      { s with
        dir := { s.dir with data := .output }
        lat := { s.lat with clock := .low, data := .low }
        faults := markLvl s.dir .clock s.faults
        trace := s.trace ++ .dir .data .output :: .dir .data .output ::
          (pulseEvents (lowBits (op.zeroExtend 8) 6) ++ [.lvl .data .low]) } := by
  rw [opOutActions, emitAll_cons, emitAll_byteOut]
  simp [emit, perSet, markLvl, perGet]

/-! ## Reading -/

@[simp] theorem nextLevels_length (n : Nat) (ds : List Level) (k : Nat) : (nextLevels n ds k).length = n := by
  induction n generalizing ds k with
  | zero => rfl
  | succ n ih => cases ds <;> simp [nextLevels, ih]

/-- Levels in store are taken in order (R12). -/
theorem nextLevels_of_store (bs ds : List Level) (k : Nat) : nextLevels bs.length (bs ++ ds) k = bs := by
  induction bs with
  | nil => rfl
  | cons b bs ih => simp [nextLevels, ih]

theorem nextLevels_add (m n : Nat) (ds : List Level) (k : Nat) :
    nextLevels (m + n) ds k = nextLevels m ds k ++ nextLevels n (ds.drop m) (k + (m - ds.length)) := by
  induction m generalizing ds k with
  | zero => simp [nextLevels]
  | succ m ih =>
    rw [Nat.succ_add]
    cases ds with
    | nil => simp [nextLevels, ih, Nat.add_assoc, Nat.add_comm 1 m]
    | cons b bs => simp [nextLevels, ih]

/-- The events of the pulses that sample `ls` (R133). -/
def samplingEvents (ls : List Level) : List WireEvent :=
  ls.flatMap fun b => [.lvl .clock .high, .wait tClkh, .sample .data b, .lvl .clock .low]

@[simp] theorem samplingEvents_nil : samplingEvents [] = [] := rfl

@[simp] theorem samplingEvents_cons (b : Level) (ls : List Level) :
    samplingEvents (b :: ls) =
      [.lvl .clock .high, .wait tClkh, .sample .data b, .lvl .clock .low] ++ samplingEvents ls := rfl

/-- `repeat n` of `byteIn`: with DATA an input, the next `n` levels are sampled and CLOCK ends LOW (R133). -/
theorem emitAll_bitsIn (n : Nat) (s : State) (hd : s.dir.data = .input) :
    emitAll (bitsInActions (n + 1)) s =
      { s with
        lat := { s.lat with clock := .low }
        faults := markLvl s.dir .clock s.faults
        samples := s.samples ++ nextLevels (n + 1) s.draws s.drawn
        draws := s.draws.drop (n + 1)
        drawn := s.drawn + (n + 1 - s.draws.length)
        trace := s.trace ++ samplingEvents (nextLevels (n + 1) s.draws s.drawn) } := by
  have hd' : perGet s.dir .data = .input := hd
  induction n generalizing s with
  | zero =>
    cases h : s.draws <;>
      simp [bitsInActions, bitInActions, emit, perSet, nextLevels, markSample_input hd', afterDraw, drawLevel, h]
  | succ n ih =>
    rw [bitsInActions, emitAll_append, ih]
    · cases h : s.draws <;>
        simp [bitInActions, emit, perSet, nextLevels, markSample_input hd', afterDraw, drawLevel, h, Nat.add_comm,
          Nat.add_left_comm]
    · simpa [bitInActions, emit] using hd
    · simpa [bitInActions, emit] using hd'

/-- What a byte unit in leaves (R133, R136): DATA an input, CLOCK LOW, eight more samples, the mark if CLOCK was an
input. -/
theorem emitAll_byteIn (s : State) :
    emitAll byteInActions s =
      { s with
        dir := { s.dir with data := .input }
        lat := { s.lat with clock := .low }
        faults := markLvl s.dir .clock s.faults
        samples := s.samples ++ nextLevels 8 s.draws s.drawn
        draws := s.draws.drop 8
        drawn := s.drawn + (8 - s.draws.length)
        trace := s.trace ++ .dir .data .input :: samplingEvents (nextLevels 8 s.draws s.drawn) } := by
  rw [byteInActions, emitAll_cons, emitAll_bitsIn 7 _ rfl]
  simp [emit, perSet, markLvl, perGet]

/-! ## Requests -/

/-- A request carried out: its events after acceptance, then its response. -/
theorem carryOut_perform (its : List Item) (k : RspKind) (s : State) :
    carryOut (.perform its k) s = complete k (emitAll (itemsActions its) (accept s)) := by
  simp [carryOut, runItems_eq_emitAll]

/-- A rejected request changes nothing but the port and the responses (R231). -/
theorem carryOut_reject (c : Cause) (s : State) : carryOut (.reject c) s = answer [rejection c] (accept s) := rfl

theorem carryOut_with_faults (p : Plan) (s : State) (f : FaultSet) :
    ∃ g, carryOut p { s with faults := f } = { carryOut p s with faults := g } := by
  cases p with
  | reject c => exact ⟨_, rfl⟩
  | perform its k =>
    obtain ⟨g, hg⟩ := emitAll_with_faults (itemsActions its) (accept s) f
    refine ⟨g, ?_⟩
    rw [carryOut_perform, show accept { s with faults := f } = { accept s with faults := f } from rfl, hg,
      carryOut_perform]
    rfl

/-- Every request is its plan carried out; a wire opcode is its unit. -/
theorem exec_eq (i : Instr) (s : State) :
    exec i s = .next (match encode i with
      | .request _ => carryOut (planOf i) s
      | .wire op => runItem (.opcode op) s) := by
  cases i <;> rfl

end Sys2Proof.Machine
end

