-- ==== Sys2Proof/Laws/PerInstr.lean ====
section
/-! SUPPORT. A family of lemmas per instruction: the word the encoder writes carries the fixed bits of its own row of
spec/opcode_table.json (its `match` under its `mask`). -/

namespace Sys2Proof.Laws.RowBits

/-- The `match` value of an instruction's row, and whether the row is a request (mask 0x000000FF) or a wire opcode (mask
0x3F). -/
def row : Instr → Bool × Nat
  | .setdir _ _ => (true, 0x01)
  | .setlvl _ _ => (true, 0x02)
  | .readlvl _ => (true, 0x03)
  | .releaseall => (true, 0x04)
  | .sendbyte _ _ => (true, 0x10)
  | .sendword _ => (true, 0x11)
  | .readbyte => (true, 0x12)
  | .readword => (true, 0x13)
  | .sendop _ => (true, 0x20)
  | .config _ => (true, 0x21)
  | .loadpgm _ => (true, 0x22)
  | .loaddata _ => (true, 0x23)
  | .readpgm => (true, 0x24)
  | .readdata => (true, 0x25)
  | .resetaddr => (true, 0x26)
  | .incaddr _ => (true, 0x27)
  | .program _ => (true, 0x28)
  | .bulkpgm _ => (true, 0x29)
  | .bulkdata _ => (true, 0x2A)
  | .enter => (true, 0x30)
  | .exit => (true, 0x31)
  | .hwreset => (true, 0x32)
  | .icsp00 => (false, 0x00)
  | .icsp02 => (false, 0x02)
  | .icsp03 => (false, 0x03)
  | .icsp04 => (false, 0x04)
  | .icsp05 => (false, 0x05)
  | .icsp06 => (false, 0x06)
  | .icsp08 => (false, 0x08)
  | .icsp09 => (false, 0x09)
  | .icsp0B => (false, 0x0B)
  | .icsp16 => (false, 0x16)
  | .icsp17 => (false, 0x17)
  | .icsp18 => (false, 0x18)

/-- The encoded word, under the row's mask, is the row's match. -/
def Statement (i : Instr) : Prop :=
  match encode i with
  | .request w => row i = (true, (opField w).toNat)
  | .wire op => row i = (false, op.toNat)

theorem setdir (sg : Signal) (d : Dir) : Statement (.setdir sg d) := by simp [Statement, encode, row]

theorem setlvl (sg : Signal) (l : Level) : Statement (.setlvl sg l) := by simp [Statement, encode, row]

theorem readlvl (sg : Signal) : Statement (.readlvl sg) := by simp [Statement, encode, row]

theorem releaseall : Statement .releaseall := by simp [Statement, encode, row]

theorem sendbyte (v : BitVec 8) (n : BitVec 4) : Statement (.sendbyte v n) := by simp [Statement, encode, row]

theorem sendword (w : BitVec 16) : Statement (.sendword w) := by simp [Statement, encode, row]

theorem readbyte : Statement .readbyte := by simp [Statement, encode, row]

theorem readword : Statement .readword := by simp [Statement, encode, row]

theorem sendop (op : BitVec 6) : Statement (.sendop op) := by simp [Statement, encode, row]

theorem config (w : BitVec 16) : Statement (.config w) := by simp [Statement, encode, row]

theorem loadpgm (w : BitVec 16) : Statement (.loadpgm w) := by simp [Statement, encode, row]

theorem loaddata (w : BitVec 16) : Statement (.loaddata w) := by simp [Statement, encode, row]

theorem readpgm : Statement .readpgm := by simp [Statement, encode, row]

theorem readdata : Statement .readdata := by simp [Statement, encode, row]

theorem resetaddr : Statement .resetaddr := by simp [Statement, encode, row]

theorem incaddr (c : BitVec 8) : Statement (.incaddr c) := by simp [Statement, encode, row]

theorem program (m : Mode) : Statement (.program m) := by simp [Statement, encode, row]

theorem bulkpgm (m : Mode) : Statement (.bulkpgm m) := by simp [Statement, encode, row]

theorem bulkdata (m : Mode) : Statement (.bulkdata m) := by simp [Statement, encode, row]

theorem enter : Statement .enter := by simp [Statement, encode, row]

theorem exit : Statement .exit := by simp [Statement, encode, row]

theorem hwreset : Statement .hwreset := by simp [Statement, encode, row]

theorem icsp00 : Statement .icsp00 := rfl

theorem icsp02 : Statement .icsp02 := rfl

theorem icsp03 : Statement .icsp03 := rfl

theorem icsp04 : Statement .icsp04 := rfl

theorem icsp05 : Statement .icsp05 := rfl

theorem icsp06 : Statement .icsp06 := rfl

theorem icsp08 : Statement .icsp08 := rfl

theorem icsp09 : Statement .icsp09 := rfl

theorem icsp0B : Statement .icsp0B := rfl

theorem icsp16 : Statement .icsp16 := rfl

theorem icsp17 : Statement .icsp17 := rfl

theorem icsp18 : Statement .icsp18 := rfl

end Sys2Proof.Laws.RowBits
end

