-- ==== Sys2Proof/Laws/Step.lean ====
section
/-! SUPPORT. What a step can do, said once: an idle block takes one thing off its port, a busy one goes on by one unit,
answers, or is reset. Every invariant's proof starts from `step_cases`. -/

namespace Sys2Proof.Machine

/-- The wire opcode a value names is encoded as that value (R90). -/
theorem encode_of_decodeWire {op : BitVec 6} {i : Instr} (h : decodeWire op = .ok i) : encode i = .wire op := by
  unfold decodeWire at h
  split at h <;> simp at h <;> subst h
  all_goals
    rename_i hop
    simp only [encode]
    congr 1
    apply BitVec.eq_of_toNat_eq
    rw [hop]
    rfl

/-- No request word decodes to a wire opcode. -/
theorem encode_of_decodeRequest {w : ReqWord} {i : Instr} (h : decodeRequest w = .ok i) :
    ∃ w', encode i = .request w' := by
  unfold decodeRequest at h
  split at h <;> simp at h <;> subst h <;> exact ⟨_, rfl⟩

/-- What a request word decodes to is its plan carried out. -/
theorem exec_of_decodeRequest {w : ReqWord} {i : Instr} (h : decodeRequest w = .ok i) (s : State) :
    exec i s = .next (carryOut (planOf i) s) := by
  obtain ⟨w', hw⟩ := encode_of_decodeRequest h
  rw [exec_eq, hw]

/-- The plan of an accepted word: its instruction's, or the rejection of a reserved OP (R87). -/
def planOfWord (w : ReqWord) : Plan :=
  match decodeRequest w with
  | .ok i => planOf i
  | .error _ => .reject .illegalOp

theorem runRequest_eq (w : ReqWord) (s : State) : runRequest w s = .next (carryOut (planOfWord w) s) := by
  unfold runRequest planOfWord
  cases h : decodeRequest w with
  | ok i => exact exec_of_decodeRequest h s
  | error e => rfl

theorem startRequest_eq (w : ReqWord) (s : State) :
    startRequest w s =
      match planOfWord w with
      | .perform its k => { accept s with items := its, rspKind := k }
      | .reject c => carryOut (.reject c) s := by
  unfold startRequest planOfWord
  cases decodeRequest w <;> rfl

/-- An operation in progress goes on by one unit, or is answered. -/
theorem advance_eq (s : State) :
    advance s = .next (match s.items with
      | [] => complete s.rspKind s
      | it :: rest => runItem it { s with items := rest }) := by
  unfold advance
  split <;> simp_all
  split
  · rename_i h
    rw [exec_eq, encode_of_decodeWire h]
  · rfl

/-- With no reset at the port, a busy step is one unit. -/
theorem stepBusy_eq (s : State) (h : ∀ k r, s.port ≠ .reset k :: r) : stepBusy s = advance s := by
  unfold stepBusy
  split <;> simp_all

/-- Everything a step can do. -/
theorem step_cases {s t : State} (h : step s = .next t) :
    (s.busy = false ∧ s.port = [] ∧ t = s) ∨
    (∃ rest, s.busy = false ∧ s.port = .gap :: rest ∧ t = { s with port := rest }) ∨
    (∃ w rest, s.busy = false ∧ s.port = .request w :: rest ∧ t = carryOut (planOfWord w) { s with port := rest }) ∨
    (∃ w rest c, s.busy = false ∧ s.port = .requestStepwise w :: rest ∧ planOfWord w = .reject c ∧
      t = carryOut (.reject c) { s with port := rest }) ∨
    (∃ w rest its k, s.busy = false ∧ s.port = .requestStepwise w :: rest ∧ planOfWord w = .perform its k ∧
      t = { accept { s with port := rest } with items := its, rspKind := k }) ∨
    (∃ k rest, s.busy = false ∧ s.port = .reset k :: rest ∧ t = resetBlock { s with port := rest }) ∨
    (∃ k rest, s.busy = true ∧ s.port = .reset k :: rest ∧ t = abortAfter k { s with port := rest }) ∨
    (s.busy = true ∧ s.items = [] ∧ t = complete s.rspKind s) ∨
    (∃ it rest, s.busy = true ∧ s.items = it :: rest ∧ t = runItem it { s with items := rest }) := by
  unfold step at h
  split at h
  case isTrue hb =>
    unfold stepBusy at h
    split at h
    case h_1 k rest hp =>
      injection h with h
      exact .inr (.inr (.inr (.inr (.inr (.inr (.inl ⟨k, rest, hb, hp, h.symm⟩))))))
    all_goals
      rw [advance_eq] at h
      injection h with h
      cases hi : s.items with
      | nil =>
        rw [hi] at h
        exact .inr (.inr (.inr (.inr (.inr (.inr (.inr (.inl ⟨hb, rfl, h.symm⟩)))))))
      | cons it rest =>
        rw [hi] at h
        exact .inr (.inr (.inr (.inr (.inr (.inr (.inr (.inr ⟨it, rest, hb, rfl, h.symm⟩)))))))
  case isFalse hb =>
    have hb : s.busy = false := by simpa using hb
    unfold stepIdle at h
    split at h
    case h_1 hp =>
      injection h with h
      exact .inl ⟨hb, hp, h.symm⟩
    case h_2 rest hp =>
      injection h with h
      exact .inr (.inl ⟨rest, hb, hp, h.symm⟩)
    case h_3 w rest hp =>
      rw [runRequest_eq] at h
      injection h with h
      exact .inr (.inr (.inl ⟨w, rest, hb, hp, h.symm⟩))
    case h_4 w rest hp =>
      injection h with h
      rw [startRequest_eq] at h
      cases hpl : planOfWord w with
      | perform its k =>
        rw [hpl] at h
        exact .inr (.inr (.inr (.inr (.inl ⟨w, rest, its, k, hb, hp, hpl, h.symm⟩))))
      | reject c =>
        rw [hpl] at h
        exact .inr (.inr (.inr (.inl ⟨w, rest, c, hb, hp, hpl, h.symm⟩)))
    case h_5 k rest hp =>
      injection h with h
      exact .inr (.inr (.inr (.inr (.inr (.inl ⟨k, rest, hb, hp, h.symm⟩)))))

/-- One step of a run of any machine. -/
theorem core_run_succ (M : Host.Core) {s t : M.State} (h : M.step s = .next t) (k : Nat) :
    M.run (k + 1) s = M.run k t := by
  simp only [Host.Core.run, h]

/-- One step of a run of this machine. -/
theorem run_succ {s t : State} (h : step s = .next t) (k : Nat) :
    Host.Core.run core (k + 1) s = Host.Core.run core k t :=
  core_run_succ core h k

end Sys2Proof.Machine
end

