-- ==== Sys2Proof/Laws/Timing.lean ====
section
/-! SUPPORT. CLOCK pulses and waits of traces put end to end. -/

namespace Sys2Proof.Machine

@[simp] theorem clockPulsesFrom_nil (held : Option Nat) : clockPulsesFrom held [] = 0 := rfl

@[simp] theorem clockPulsesFrom_cons (held : Option Nat) (e : WireEvent) (rest : List WireEvent) :
    clockPulsesFrom held (e :: rest) =
      (if endsPulse held e then 1 else 0) + clockPulsesFrom (holdAfter held e) rest := rfl

/-- Only what was held HIGH can end a pulse. -/
@[simp] theorem endsPulse_none (e : WireEvent) : endsPulse none e = false := by
  unfold endsPulse
  split <;> simp_all

/-- An event that does not drive CLOCK leaves it not held HIGH. -/
theorem holdAfter_none {e : WireEvent} (hl : e ≠ .lvl .clock .high) (hd : e ≠ .drive .clock .high) :
    holdAfter none e = none := by
  unfold holdAfter
  split <;> simp_all

/-- Pulses add up, the second trace beginning with CLOCK as the first left it. -/
theorem clockPulsesFrom_append (held : Option Nat) (xs ys : List WireEvent) :
    clockPulsesFrom held (xs ++ ys) = clockPulsesFrom held xs + clockPulsesFrom (xs.foldl holdAfter held) ys := by
  induction xs generalizing held with
  | nil => simp
  | cons e xs ih => simp [ih, Nat.add_assoc]

/-- After a trace that ends with CLOCK LOW, the next one's pulses count from none. -/
theorem clockPulses_append {xs : List WireEvent} (h : xs.foldl holdAfter none = none) (ys : List WireEvent) :
    clockPulses (xs ++ ys) = clockPulses xs + clockPulses ys := by
  rw [clockPulses, clockPulsesFrom_append, h]
  rfl

theorem waitTotal_append (xs ys : List WireEvent) : waitTotal (xs ++ ys) = waitTotal xs + waitTotal ys := by
  induction xs with
  | nil => simp [waitTotal]
  | cons e xs ih => cases e <;> simp [waitTotal, ih, Nat.add_assoc]

end Sys2Proof.Machine
end

