-- ==== Sys2Proof/Tests/Slice0.lean ====
section
/-! SUPPORT. Tests of the model's own, and the witnesses of the statements' hypotheses. Expected results come from
spec/95_test_vectors.md (named in each comment) or are written out from the encodings of spec/30_encoding.md. -/

namespace Sys2Proof.Tests

open Sys2Proof.Machine Sys2Proof.Slice0

/-! ## Helpers -/

/-- Bits as levels, in wire order. -/
def wire (bs : List Nat) : List Level := bs.map fun b => if b = 1 then .high else .low

/-- A state like the session state of 95_test_vectors.md: all outputs, CLOCK and DATA LOW; the two levels an
implementation fixes are written as HIGH here. -/
def sess : State := { State.reset with dir := ⟨.output, .output, .output, .output⟩, lat := ⟨.low, .low, .high, .high⟩ }

/-- The same with levels in store. -/
def sessWith (bs : List Nat) : State := { sess with draws := wire bs }

/-- The next state of an outcome (the faults and refusals of this model do not arise). -/
def nextOf (o : Host.Outcome State Fault Refusal) : Option State :=
  match o with
  | .next t => some t
  | .fault _ => none
  | .refused _ => none

/-- One step with a word presented. -/
def present (w : ReqWord) (s : State) : Option State := nextOf (step { s with port := [.request w] })

/-- The responses after one presented word. -/
def answered (w : ReqWord) (s : State) : Option (List Response) := (present w s).map State.responses

/-- The events of one presented word. -/
def emitted (w : ReqWord) (s : State) : Option (List WireEvent) := (present w s).map State.trace

/-- The bits on DATA at the pulses of one presented word. -/
def clocked (w : ReqWord) (s : State) : Option (List Level) :=
  (emitted w s).map (bitsOut s.dir.data s.lat.data)

/-! ## Well-formedness -/

/-- R88: the bit counts 3, 9, 0 and 15 are illegal (B9 to B12). -/
theorem test_wellFormed_refuses_bit_counts :
    wellFormed (.sendbyte 0x5A 3) = false ∧ wellFormed (.sendbyte 0x5A 9) = false ∧
      wellFormed (.sendbyte 0x5A 0) = false ∧ wellFormed (.sendbyte 0x5A 15) = false := by decide

/-- R88: 4 and 8 are legal (B3, B1). -/
theorem test_wellFormed_accepts_bit_counts :
    wellFormed (.sendbyte 0xA5 4) = true ∧ wellFormed (.sendbyte 0xA5 8) = true := by decide

/-! ## Decoding: a word of every constructor, written out as `D_0000_A_OP` (R81, R82, R86), and every opcode of R90 -/

/-- S2, `SETDIR RESET, IN`: v = 1, s = 3. -/
theorem test_decode_setdir :
    decodeRequest 0b0000000000000000_0000_0111_00000001 = .ok (.setdir .reset .input) := by decide

/-- S4, `SETLVL DATA, HI`: v = 1, s = 1. -/
theorem test_decode_setlvl :
    decodeRequest 0b0000000000000000_0000_0101_00000010 = .ok (.setlvl .data .high) := by decide

/-- S7, `READLVL PGM`: s = 2. -/
theorem test_decode_readlvl :
    decodeRequest 0b0000000000000000_0000_0010_00000011 = .ok (.readlvl .pgm) := by decide

/-- S9, junk in every ignored bit. -/
theorem test_decode_releaseall :
    decodeRequest 0b1111111111111111_1111_1111_00000100 = .ok (.releaseall) := by decide

/-- B2, `SENDBYTE 0xA5, 6`. -/
theorem test_decode_sendbyte :
    decodeRequest 0b0000000010100101_0000_0110_00010000 = .ok (.sendbyte 0xA5 6) := by decide

/-- W5, `SENDWORD 0x2ABC`. -/
theorem test_decode_sendword :
    decodeRequest 0b0010101010111100_0000_0000_00010001 = .ok (.sendword 0x2ABC) := by decide

/-- OP 0x12. -/
theorem test_decode_readbyte :
    decodeRequest 0b0000000000000000_0000_0000_00010010 = .ok (.readbyte) := by decide

/-- OP 0x13. -/
theorem test_decode_readword :
    decodeRequest 0b0000000000000000_0000_0000_00010011 = .ok (.readword) := by decide

/-- O13, D[15:6] ignored. -/
theorem test_decode_sendop :
    decodeRequest 0b0000000011000110_0000_0000_00100000 = .ok (.sendop 0x06) := by decide

/-- C1. -/
theorem test_decode_config :
    decodeRequest 0b0000000000000000_0000_0000_00100001 = .ok (.config 0x0000) := by decide

/-- C2. -/
theorem test_decode_loadpgm :
    decodeRequest 0b0010101010111100_0000_0000_00100010 = .ok (.loadpgm 0x2ABC) := by decide

/-- C3. -/
theorem test_decode_loaddata :
    decodeRequest 0b0000000010100101_0000_0000_00100011 = .ok (.loaddata 0x00A5) := by decide

/-- C5. -/
theorem test_decode_readpgm :
    decodeRequest 0b0000000000000000_0000_0000_00100100 = .ok (.readpgm) := by decide

/-- C6. -/
theorem test_decode_readdata :
    decodeRequest 0b0000000000000000_0000_0000_00100101 = .ok (.readdata) := by decide

/-- X7, `req[15:12]` ignored. -/
theorem test_decode_resetaddr :
    decodeRequest 0b0000000000000000_1111_0000_00100110 = .ok (.resetaddr) := by decide

/-- C13, D[15:8] ignored. -/
theorem test_decode_incaddr :
    decodeRequest 0b0000000100000000_0000_0000_00100111 = .ok (.incaddr 0) := by decide

/-- C16, A[3:1] ignored. -/
theorem test_decode_program :
    decodeRequest 0b0000000000000000_0000_1110_00101000 = .ok (.program .mid) := by decide

/-- C18. -/
theorem test_decode_bulkpgm :
    decodeRequest 0b0000000000000000_0000_0001_00101001 = .ok (.bulkpgm .enhanced) := by decide

/-- C19. -/
theorem test_decode_bulkdata :
    decodeRequest 0b0000000000000000_0000_0000_00101010 = .ok (.bulkdata .mid) := by decide

/-- Q1. -/
theorem test_decode_enter :
    decodeRequest 0b0000000000000000_0000_0000_00110000 = .ok (.enter) := by decide

/-- Q2. -/
theorem test_decode_exit :
    decodeRequest 0b0000000000000000_0000_0000_00110001 = .ok (.exit) := by decide

/-- X8. -/
theorem test_decode_hwreset :
    decodeRequest 0b0001001000110100_1111_0000_00110010 = .ok (.hwreset) := by decide

theorem test_decode_icsp00 : decodeWire 0b000000 = .ok .icsp00 := by decide

theorem test_decode_icsp02 : decodeWire 0b000010 = .ok .icsp02 := by decide

theorem test_decode_icsp03 : decodeWire 0b000011 = .ok .icsp03 := by decide

theorem test_decode_icsp04 : decodeWire 0b000100 = .ok .icsp04 := by decide

theorem test_decode_icsp05 : decodeWire 0b000101 = .ok .icsp05 := by decide

theorem test_decode_icsp06 : decodeWire 0b000110 = .ok .icsp06 := by decide

theorem test_decode_icsp08 : decodeWire 0b001000 = .ok .icsp08 := by decide

theorem test_decode_icsp09 : decodeWire 0b001001 = .ok .icsp09 := by decide

theorem test_decode_icsp0B : decodeWire 0b001011 = .ok .icsp0B := by decide

theorem test_decode_icsp16 : decodeWire 0b010110 = .ok .icsp16 := by decide

theorem test_decode_icsp17 : decodeWire 0b010111 = .ok .icsp17 := by decide

theorem test_decode_icsp18 : decodeWire 0b011000 = .ok .icsp18 := by decide

/-- R87, X1 to X6: reserved OPs are no instruction. -/
theorem test_decode_refuses_reserved :
    decodeRequest 0x00000000 = .error (.illegalOp 0x00) ∧ decodeRequest 0x00000005 = .error (.illegalOp 0x05) ∧
      decodeRequest 0x00000014 = .error (.illegalOp 0x14) ∧ decodeRequest 0x0000002B = .error (.illegalOp 0x2B) ∧
      decodeRequest 0x00000033 = .error (.illegalOp 0x33) ∧ decodeRequest 0x000000FF = .error (.illegalOp 0xFF) := by
  decide

/-- R92: a value R90 does not name is no row of the table. -/
theorem test_decode_refuses_unnamed_opcode : decodeWire 0x3F = .error (.unnamedOpcode 0x3F) := by decide

/-- The table's numbering: a request row, and a wire opcode no request OP shares its value with. -/
theorem test_decodeTableWord :
    decodeTableWord 32 0x00A50410 = some (.sendbyte 0xA5 4) ∧ decodeTableWord 8 0x16 = some .icsp16 := by decide

/-- A placed request is the first instruction after reset. -/
theorem test_withFetchWord_request :
    (nextOf (step (State.reset.withFetchWord 32 0x00000101))).map State.trace = some [.dir .data .output] := by decide

/-- A placed wire opcode is the next unit of an operation in progress. -/
theorem test_withFetchWord_wire :
    (nextOf (step (State.reset.withFetchWord 8 0x06))).map (fun t => bitsOut .input .low t.trace) =
      some (wire [0, 1, 1, 0, 0, 0]) := by decide

/-! ## The signal multiplexer (section 2.1) -/

/-- S1. -/
theorem test_setdir : (present 0x00000101 State.reset).map State.dir = some ⟨.input, .output, .input, .input⟩ := by decide

/-- S3. -/
theorem test_setlvl : (present 0x00000402 sess).map (fun t => pin t .clock) = some (some .high) := by decide

/-- S4: the latch is written, the pin stays released, the fault is marked. -/
theorem test_setlvl_on_an_input :
    (present 0x00000502 State.reset).map (fun t => (t.lat.data, pin t .data, t.faults.driveInput)) =
      some (.high, none, ⟨false, true, false, false⟩) := by decide

/-- S6. -/
theorem test_readlvl : answered 0x00000103 { State.reset with draws := [.high] } = some [⟨false, 0x0001⟩] := by decide

/-- S7: the draw answers, not the latch, and the fault is marked. -/
theorem test_readlvl_of_an_output :
    (present 0x00000203 { sess with draws := [.low] }).map (fun t => (t.responses, t.faults.sampleOutput)) =
      some ([⟨false, 0x0000⟩], ⟨false, false, true, false⟩) := by decide

/-- S9. -/
theorem test_releaseall :
    (present 0xFFFFFF04 sess).map (fun t => (dirRegister t.dir, t.lat)) = some (0b1111, sess.lat) := by decide

/-! ## The codec (section 2.2) -/

/-- B3's trace in full. -/
theorem test_sendbyte :
    emitted 0x00A50410 sess =
      some [.dir .data .output, .lvl .data .high, .lvl .clock .high, .wait 100, .lvl .clock .low, .lvl .data .low,
        .lvl .clock .high, .wait 100, .lvl .clock .low, .lvl .data .high, .lvl .clock .high, .wait 100, .lvl .clock .low,
        .lvl .data .low, .lvl .clock .high, .wait 100, .lvl .clock .low, .lvl .data .low] := by decide

/-- B9. -/
theorem test_sendbyte_rejected :
    (present 0x005A0310 sess).map (fun t => (t.trace, t.responses)) = some ([], [⟨true, 0x0002⟩]) := by decide

/-- W4. -/
theorem test_sendword : clocked 0x12340011 sess = some (wire [0, 0, 0, 1, 0, 1, 1, 0, 0, 0, 1, 0, 0, 1, 0, 0]) := by decide

/-- W9: bits 15 and 14 are ignored. -/
theorem test_sendword_ignores_the_top :
    clocked 0xFFFF0011 sess = some (wire [0, 1, 1, 1, 1, 1, 1, 1, 1, 1, 1, 1, 1, 1, 1, 0]) := by decide

/-- RB1, and a byte that tells the bit order (RB4). -/
theorem test_readbyte :
    answered 0x00000012 (sessWith [1, 0, 1, 0, 0, 1, 0, 1]) = some [⟨false, 0x00A5⟩] ∧
      answered 0x00000012 (sessWith [1, 0, 0, 0, 0, 0, 0, 0]) = some [⟨false, 0x0001⟩] := by decide

/-- RW8: start and stop bits are ignored. -/
theorem test_readword :
    answered 0x00000013 (sessWith [1, 1, 1, 1, 1, 1, 1, 1, 1, 1, 1, 1, 1, 1, 0, 0]) = some [⟨false, 0x1FFF⟩] := by decide

/-- RW5, with DATA left an input. -/
theorem test_readword_leaves_data_an_input :
    (present 0x00000013 (sessWith [0, 0, 0, 1, 0, 1, 1, 0, 0, 0, 1, 0, 0, 1, 0, 0])).map
      (fun t => (t.responses, t.dir.data)) = some ([⟨false, 0x1234⟩], .input) := by decide

/-- R15, R136: a rising edge with its wait is no pulse before the falling edge, and neither is one too short. -/
theorem test_a_pulse_needs_its_falling_edge :
    clockPulses [.lvl .clock .high, .wait 100] = 0 ∧ clockPulses [.lvl .clock .high, .lvl .clock .low] = 0 ∧
      clockPulses [.lvl .clock .high, .wait 100, .lvl .clock .low] = 1 := by decide

/-! ## The command sequencer (section 2.3) -/

/-- O10. -/
theorem test_sendop : clocked 0x00160020 sess = some (wire [0, 1, 1, 0, 1, 0]) := by decide

/-- C1. -/
theorem test_config : clocked 0x00000021 sess = some (wire (List.replicate 22 0)) := by decide

/-- C2. -/
theorem test_loadpgm :
    clocked 0x2ABC0022 sess =
      some (wire [0, 1, 0, 0, 0, 0, 0, 0, 0, 1, 1, 1, 1, 0, 1, 0, 1, 0, 1, 0, 1, 0]) := by decide

/-- C3. -/
theorem test_loaddata :
    clocked 0x00A50023 sess =
      some (wire [1, 1, 0, 0, 0, 0, 0, 1, 0, 1, 0, 0, 1, 0, 1, 0, 0, 0, 0, 0, 0, 0]) := by decide

/-- C5: the opcode out, the word in. -/
theorem test_readpgm :
    (present 0x00000024 (sessWith [0, 0, 0, 1, 0, 1, 1, 0, 0, 0, 1, 0, 0, 1, 0, 0])).map
      (fun t => (bitsOut .output .low t.trace, t.responses)) =
        some (wire [0, 0, 1, 0, 0, 0], [⟨false, 0x1234⟩]) := by decide

/-- C6. -/
theorem test_readdata :
    (present 0x00000025 (sessWith [0, 1, 0, 1, 0, 0, 1, 0, 1, 0, 0, 0, 0, 0, 0, 0])).map
      (fun t => (bitsOut .output .low t.trace, t.responses)) =
        some (wire [1, 0, 1, 0, 0, 0], [⟨false, 0x00A5⟩]) := by decide

/-- C8. -/
theorem test_resetaddr : clocked 0x00000026 sess = some (wire [0, 1, 1, 0, 1, 0]) := by decide

/-- C11. -/
theorem test_incaddr :
    clocked 0x00030027 sess = some (wire [0, 1, 1, 0, 0, 0, 0, 1, 1, 0, 0, 0, 0, 1, 1, 0, 0, 0]) := by decide

/-- C22: no event and no fault, even from reset. -/
theorem test_incaddr_zero :
    (present 0x00000027 State.reset).map (fun t => (t.trace, t.faults, t.responses)) =
      some ([], FaultSet.empty, [⟨false, 0⟩]) := by decide

/-- C14: the bits, the events and the wait. -/
theorem test_program_mid :
    (emitted 0x00000028 sess).map (fun e => (bitsOut .output .low e, e.length, waitTotal e)) =
      some (wire [0, 0, 0, 1, 1, 0, 1, 1, 1, 0, 1, 0], 55, 2001200) := by decide

/-- C15. -/
theorem test_program_enhanced :
    (emitted 0x00000128 sess).map (fun e => (bitsOut .output .low e, e.length, waitTotal e)) =
      some (wire [0, 0, 0, 1, 0, 0], 28, 5000600) := by decide

/-- C17. -/
theorem test_bulkpgm_mid :
    (emitted 0x00000029 sess).map (fun e => (bitsOut .output .low e, e.length, waitTotal e)) =
      some (wire [1, 0, 0, 1, 0, 0, 0, 0, 0, 1, 1, 0, 1, 1, 1, 0, 1, 0], 84, 15001800) := by decide

/-- C20. -/
theorem test_bulkdata_enhanced :
    (emitted 0x0000012A sess).map (fun e => (bitsOut .output .low e, e.length, waitTotal e)) =
      some (wire [1, 1, 0, 1, 0, 0], 28, 5000600) := by decide

/-! ## The session sequencer (section 2.4) -/

/-- Q1 and L1-3: RESET strictly before PGM. -/
theorem test_enter :
    emitted 0x00000030 State.reset =
      some [.relall, .drive .clock .low, .drive .data .low, .wait 1000000, .drive .reset Config.resetAssertLevel,
        .wait 1000000, .drive .pgm Config.pgmAssertLevel, .wait 1000000] := by rfl

/-- Q3: from reset, with no fault. -/
theorem test_exit :
    (present 0x00000031 State.reset).map (fun t => (dirRegister t.dir, t.trace.length, t.faults)) =
      some (0b1111, 5, FaultSet.empty) := by decide

/-- Q5. -/
theorem test_hwreset :
    (present 0x00000032 sess).map (fun t => (t.trace, t.dir, t.lat, t.responses)) =
      some ([], sess.dir, sess.lat, [⟨false, 0⟩]) := by decide

/-! ## The wire opcodes (section 2.3, O1 to O12), rejection (section 2.5), reset (R262), the dispatcher (section 1) -/

/-- The wire-order column of R90, for every opcode it names. -/
theorem test_wire_opcodes :
    ([.icsp00, .icsp02, .icsp03, .icsp04, .icsp05, .icsp06, .icsp08, .icsp09, .icsp0B, .icsp16, .icsp17, .icsp18].map
      fun i => (nextOf (exec i sess)).map fun t => bitsOut .output .low t.trace) =
      [[0, 0, 0, 0, 0, 0], [0, 1, 0, 0, 0, 0], [1, 1, 0, 0, 0, 0], [0, 0, 1, 0, 0, 0], [1, 0, 1, 0, 0, 0],
        [0, 1, 1, 0, 0, 0], [0, 0, 0, 1, 0, 0], [1, 0, 0, 1, 0, 0], [1, 1, 0, 1, 0, 0], [0, 1, 1, 0, 1, 0],
        [1, 1, 1, 0, 1, 0], [0, 0, 0, 1, 1, 0]].map (fun bs => some (wire bs)) := by decide

/-- X6. -/
theorem test_reserved_op_rejected :
    (present 0x000000FF sess).map (fun t => (t.trace, t.dir, t.responses)) =
      some ([], sess.dir, [⟨true, 0x0001⟩]) := by decide

/-- R262: reset after two of the events of the unit in progress; the rest is never emitted. -/
theorem test_reset_aborts :
    (nextOf (step { sess with busy := true, items := [.byteOut 0xA5 4], rspKind := .zero, port := [.reset 2] })).map
      (fun t => (t.ended.map Observation.trace, t.responses, dirRegister t.dir, t.busy)) =
      some ([[.dir .data .output, .lvl .data .high, .relall]], [], 0b1111, false) := by decide

/-- R96: `LOADINC 0x2ABC` is LOADPGM 0x2ABC and then INCADDR 1. -/
theorem test_pseudo_loadinc : expandPseudo (.loadinc 0x2ABC) = [.loadpgm 0x2ABC, .incaddr 1] := by decide

/-- L1-5: `'F', 0x03, 0x00` gives three reads, each followed by an increment. -/
theorem test_fetch_requests :
    requestsOf .cF [0x03, 0x00] = [.readpgm, .incaddr 1, .readpgm, .incaddr 1, .readpgm, .incaddr 1] := by decide

/-! ## Witnesses: the hypotheses of every statement that has some are met, at the ends of their ranges -/

theorem witness_EncodeOfDecodeClearsIgnoredBits : decodeRequest 0xFFFFFF04 = .ok .releaseall := by decide

theorem witness_IgnoredBitsHaveNoEffect :
    State.reset.busy = false ∧
      (0x00000004 : ReqWord) &&& usedBits (opField 0x00000004) = 0xFFFFFF04 &&& usedBits (opField 0xFFFFFF04) := by decide

theorem witness_AssemblingAnInstructionsLineGivesIt : encode (.incaddr 255) = .request 0x00FF0027 := by decide

theorem witness_StepRunsTheDecodedInstruction_idle :
    (State.reset.withFetchWord 32 0x0000012A).busy = false ∧
      (State.reset.withFetchWord 32 0x0000012A).port = .request 0x0000012A :: [] ∧
      decode (.request 0x0000012A) = .ok (.bulkdata .enhanced) := by decide

theorem witness_StepRunsTheDecodedInstruction_busy :
    (State.reset.withFetchWord 8 0x18).busy = true ∧ (State.reset.withFetchWord 8 0x18).items = .opcode 0x18 :: [] ∧
      (State.reset.withFetchWord 8 0x18).port = .gap :: [] ∧
      (∀ k r, (PortInput.gap :: []) ≠ .reset k :: r) ∧ decode (.wire 0x18) = .ok .icsp18 := by
  refine ⟨by decide, by decide, by decide, ?_, by decide⟩
  intro k r h
  cases h

/-- The states of the witnesses below: a word presented to an idle block, and to a busy one. -/
def idleWith (w : ReqWord) : State := { State.reset with port := [.request w] }

/-- A busy block with the units given, and a word presented. -/
def busyWith (its : List Item) (k : RspKind) (bs : List Level) (w : ReqWord) : State :=
  { State.reset with busy := true, items := its, rspKind := k, samples := bs, port := [.request w] }

theorem witness_RejectedRequestsOnlyAnswerTheCause_reserved :
    (idleWith 0x00000000).busy = false ∧ (idleWith 0x00000000).port = .request 0x00000000 :: [] ∧
      (0x00000000 : ReqWord).extractLsb' 0 8 ∉ assignedOps ∧ (0x00000033 : ReqWord).extractLsb' 0 8 ∉ assignedOps ∧
      (0x000000FF : ReqWord).extractLsb' 0 8 ∉ assignedOps := by decide

theorem witness_RejectedRequestsOnlyAnswerTheCause_bit_count :
    (idleWith 0x005A0310).port = .request 0x005A0310 :: [] ∧ (0x005A0310 : ReqWord).extractLsb' 0 8 = 0x10 ∧
      ((0x005A0310 : ReqWord).extractLsb' 8 4).toNat < 4 ∧ 8 < ((0x005A0910 : ReqWord).extractLsb' 8 4).toNat := by decide

theorem witness_OneResponsePerRequest :
    (idleWith 0x00000024).busy = false ∧ (idleWith 0x00000024).port = .request 0x00000024 :: [] := by decide

theorem witness_NoRequestExceeds6885Events :
    (idleWith 0x00FF0027).busy = false ∧ (idleWith 0x00FF0027).port = .request 0x00FF0027 :: [] := by decide

theorem witness_PresentedRequestWaitsWhileBusy_in_progress :
    (busyWith [.byteIn] .byte [] 0x00000004).busy = true ∧
      (busyWith [.byteIn] .byte [] 0x00000004).port = .request 0x00000004 :: [] ∧
      (busyWith [.byteIn] .byte [] 0x00000004).items ≠ [] := by decide

/-- The same with the request to be followed unit by unit. -/
theorem witness_PresentedRequestWaitsWhileBusy_stepwise :
    ({ busyWith [.byteIn] .byte [] 0 with port := [.requestStepwise 0x00000004] } : State).busy = true ∧
      ({ busyWith [.byteIn] .byte [] 0 with port := [.requestStepwise 0x00000004] } : State).port =
        .requestStepwise 0x00000004 :: [] ∧
      (PortInput.requestStepwise 0x00000004 = .request 0x00000004 ∨
        PortInput.requestStepwise 0x00000004 = .requestStepwise 0x00000004) := by decide

theorem witness_PresentedRequestWaitsWhileBusy_at_the_end :
    (busyWith [] .zero [] 0x00000004).busy = true ∧
      (busyWith [] .zero [] 0x00000004).port = .request 0x00000004 :: [] ∧
      (busyWith [] .zero [] 0x00000004).items = [] := by decide

/-- The words of the encoding clause of every operation's statement, ignored bits set. -/
theorem witness_operation_words :
    (0xFFFFFF01 : ReqWord).extractLsb' 0 8 = 0x01 ∧ (0xFFFFFF02 : ReqWord).extractLsb' 0 8 = 0x02 ∧
      (0xFFFFFF03 : ReqWord).extractLsb' 0 8 = 0x03 ∧ (0xFFFFFF04 : ReqWord).extractLsb' 0 8 = 0x04 ∧
      (0xFFFFFF10 : ReqWord).extractLsb' 0 8 = 0x10 ∧ (0xFFFFFF11 : ReqWord).extractLsb' 0 8 = 0x11 ∧
      (0xFFFFFF12 : ReqWord).extractLsb' 0 8 = 0x12 ∧ (0xFFFFFF13 : ReqWord).extractLsb' 0 8 = 0x13 ∧
      (0xFFFFFF20 : ReqWord).extractLsb' 0 8 = 0x20 ∧ (0xFFFFFF21 : ReqWord).extractLsb' 0 8 = 0x21 ∧
      (0xFFFFFF22 : ReqWord).extractLsb' 0 8 = 0x22 ∧ (0xFFFFFF23 : ReqWord).extractLsb' 0 8 = 0x23 ∧
      (0xFFFFFF24 : ReqWord).extractLsb' 0 8 = 0x24 ∧ (0xFFFFFF25 : ReqWord).extractLsb' 0 8 = 0x25 ∧
      (0xFFFFFF26 : ReqWord).extractLsb' 0 8 = 0x26 ∧ (0xFFFFFF27 : ReqWord).extractLsb' 0 8 = 0x27 ∧
      (0xFFFFFF28 : ReqWord).extractLsb' 0 8 = 0x28 ∧ (0xFFFFFF29 : ReqWord).extractLsb' 0 8 = 0x29 ∧
      (0xFFFFFF2A : ReqWord).extractLsb' 0 8 = 0x2A ∧ (0xFFFFFF30 : ReqWord).extractLsb' 0 8 = 0x30 ∧
      (0xFFFFFF31 : ReqWord).extractLsb' 0 8 = 0x31 ∧ (0xFFFFFF32 : ReqWord).extractLsb' 0 8 = 0x32 := by decide

theorem witness_LatchShowsOnlyOnAnOutput : perGet State.reset.dir .reset = .input := by decide

theorem witness_SignalWritesAreIdempotent :
    (∃ sg d, Instr.setdir .clock .input = .setdir sg d) ∧ (∃ sg l, Instr.setlvl .reset .low = .setlvl sg l) :=
  ⟨⟨_, _, rfl⟩, ⟨_, _, rfl⟩⟩

theorem witness_SendbyteClocksTheLowBitsOrIsRejected_legal :
    (4 ≤ (4 : BitVec 4).toNat ∧ (4 : BitVec 4).toNat ≤ 8) ∧ 4 ≤ (8 : BitVec 4).toNat ∧ (8 : BitVec 4).toNat ≤ 8 := by decide

theorem witness_SendbyteClocksTheLowBitsOrIsRejected_illegal :
    ((3 : BitVec 4).toNat < 4 ∨ 8 < (3 : BitVec 4).toNat) ∧ ((9 : BitVec 4).toNat < 4 ∨ 8 < (9 : BitVec 4).toNat) ∧
      ((0 : BitVec 4).toNat < 4 ∨ 8 < (0 : BitVec 4).toNat) ∧ ((15 : BitVec 4).toNat < 4 ∨ 8 < (15 : BitVec 4).toNat) := by
  decide

theorem witness_CodecUnitsPulseClockExactly : (4 ≤ 4 ∧ 4 ≤ 8) ∧ 4 ≤ 8 ∧ 8 ≤ 8 := by decide

theorem witness_ReadsSendOpcodeThenReadFrame :
    (Instr.readpgm = .readpgm ∧ (0x04 : BitVec 6) = 0x04) ∧ (Instr.readdata = .readdata ∧ (0x05 : BitVec 6) = 0x05) := by
  decide

theorem witness_IncaddrSendsItsOpcodeCountTimes : (1 : BitVec 8) ≠ 0 ∧ (255 : BitVec 8) ≠ 0 := by decide

theorem witness_WireOpcodesTravelAsOneUnit : encode .icsp00 = .wire 0x00 ∧ encode .icsp18 = .wire 0x18 := by decide

theorem witness_PulsingRecordsOnlyTheClockMark :
    pulses (.incaddr 0) = true ∧ pulses (.sendbyte 0 3) = true ∧ pulses .readword = true := by decide

theorem witness_DataMovesOnlyWhileClockIsLow : pulses .readpgm = true ∧ sess.lat.clock = .low := by decide

theorem witness_ResetReleasesAndStartsANewRun :
    ({ sess with port := [.reset 0] } : State).busy = false ∧
      ({ sess with port := [.reset 0] } : State).port = .reset 0 :: [] := by decide

theorem witness_ResetAbortsTheOperationInProgress :
    ({ busyWith [.byteIn] .byte [] 0 with port := [.reset 3] } : State).busy = true ∧
      ({ busyWith [.byteIn] .byte [] 0 with port := [.reset 3] } : State).port = .reset 3 :: [] := by decide

/-- The state after S4's request, and the state before it. -/
def afterS4 : State := runItem (.event (.lvl .data .high)) State.reset

theorem witness_FaultsAreMarksAndStayUntilReset_within_a_run :
    (∀ k rest, afterS4.port ≠ .reset k :: rest) ∧ step afterS4 = .next afterS4 ∧
      hasFault afterS4.faults (.driveInput .data) = true := ⟨fun _ _ h => (nomatch h), rfl, by decide⟩

theorem witness_FaultsAreMarksAndStayUntilReset_at_a_reset :
    ({ afterS4 with port := [.reset 0] } : State).port = .reset 0 :: [] ∧
      ∃ t, step { afterS4 with port := [.reset 0] } = .next t := ⟨rfl, _, rfl⟩

theorem witness_TraceAccountsForSignalState : TraceAccounts afterS4 ∧ step afterS4 = .next afterS4 := ⟨rfl, rfl⟩

theorem witness_NothingTransientPersists : QuietWhenIdle afterS4 ∧ step afterS4 = .next afterS4 :=
  ⟨fun _ => ⟨rfl, rfl, rfl⟩, rfl⟩

/-- Half a READWORD. -/
def halfRead : State := busyWith [.byteIn] .word (wire [0, 0, 0, 1, 0, 1, 1, 0]) 0x00000004

theorem witness_SamplesAddUpToTheResponse :
    SamplesAddUp halfRead ∧ ∃ t, step halfRead = .next t := ⟨fun _ => rfl, _, rfl⟩

theorem witness_LeftoverBuffersNeverReachAResult : encode .readword = .request 0x00000013 := by decide

theorem witness_UnitByUnitRefinesOneStep :
    State.reset.busy = false ∧ QuietWhenIdle State.reset ∧ (∀ k r, ([] : List PortInput) ≠ .reset k :: r) :=
  ⟨rfl, fun _ => ⟨rfl, rfl, rfl⟩, fun _ _ h => nomatch h⟩

/-- EXIT's events with time stamps that keep every bound. -/
theorem witness_ResponseWaitsForEveryDelay :
    timingKept none 0 [.drive .pgm .low, .wait 1000000, .drive .reset .low, .wait 1000000, .relall]
      (0 :: [1000000 + Config.tStep, 2000000 + 2 * Config.tStep]) (2000000 + 2 * Config.tStep) = true := by
  simp [timingKept, distanceKept]
  omega

theorem witness_SampleAndWaitChangeNoSignal :
    (∀ u, WireEvent.relall ≠ .wait u) ∧
      timingKept none 0 [.relall, .wait 100, .relall] [0, 100 + Config.tStep] (100 + Config.tStep) = true := by
  refine ⟨fun _ h => (nomatch h), ?_⟩
  simp [timingKept, distanceKept]

theorem witness_FetchReadsCountWords : State.reset.busy = false := by decide

theorem witness_UnknownCommandTouchesNoSignal : commandOfByte 0x7E = none := by decide

end Sys2Proof.Tests
end

/-! The statements of spec/00_scope.md: a step always answers (R12, section 4), and time stamps that keep every lower
bound keep the waits of R277 (R14, section 5). -/

namespace Sys2Proof.Machine

open Sys2Proof.Slice0

/-! ## A step answers a next state (R12, R278) -/

/-- An idle block answers whatever stands at its port (R80, R247). -/
theorem exists_stepIdle_eq_next (s : State) : ∃ t, stepIdle s = .next t := by
  unfold stepIdle
  split
  case h_3 w rest hp => exact ⟨_, runRequest_eq w _⟩
  all_goals exact ⟨_, rfl⟩

/-- A busy block answers a reset, and otherwise goes on by one unit (R66, R262). -/
theorem exists_stepBusy_eq_next (s : State) : ∃ t, stepBusy s = .next t := by
  unfold stepBusy
  split
  case h_1 k rest hp => exact ⟨_, rfl⟩
  all_goals exact ⟨_, advance_eq s⟩

/-- Settles O11: both an idle and a busy block answer. -/
theorem everyStepAnswersANextState : Obligations.EveryStepAnswersANextState := by
  intro s
  cases hb : s.busy with
  | false => simpa [step, hb] using exists_stepIdle_eq_next s
  | true => simpa [step, hb] using exists_stepBusy_eq_next s

/-! ## The actions of an instruction -/

/-- The actions an instruction emits: those of its plan's units; a rejected request has none (R231). -/
def actionsOf (i : Instr) : List Action :=
  match planOf i with
  | .perform its _ => itemsActions its
  | .reject _ => []

theorem actionsOf_of_perform {i : Instr} {its : List Item} {k : RspKind} (h : planOf i = .perform its k) :
    actionsOf i = itemsActions its := by
  simp [actionsOf, h]

theorem actionsOf_of_reject {i : Instr} {c : Cause} (h : planOf i = .reject c) : actionsOf i = [] := by
  simp [actionsOf, h]

/-- The plan of a wire opcode is its one unit (R91). -/
theorem planOf_of_encode_wire {i : Instr} {op : BitVec 6} (h : encode i = .wire op) :
    planOf i = .perform [.opcode op] .silent := by
  cases i <;> cases h <;> rfl

@[simp] theorem itemsActions_nil : itemsActions [] = [] := rfl

@[simp] theorem itemsActions_cons (it : Item) (its : List Item) :
    itemsActions (it :: its) = itemActions it ++ itemsActions its := rfl

/-- A request carried out appends exactly its plan's events to the trace. -/
theorem carryOut_planOf_trace (i : Instr) (s : State) :
    ∃ evs, (carryOut (planOf i) s).trace = s.trace ++ evs ∧ evs.map shapeOf = actionsOf i := by
  cases hp : planOf i with
  | perform its k =>
    rw [carryOut_perform, actionsOf_of_perform hp]
    exact emitAll_trace (itemsActions its) (accept s)
  | reject c => exact ⟨[], by simp [carryOut_reject], (actionsOf_of_reject hp).symm⟩

/-- Every instruction answers a next state and appends exactly its own actions' events to the trace. -/
theorem exec_trace (i : Instr) (s : State) :
    ∃ t evs, exec i s = .next t ∧ t.trace = s.trace ++ evs ∧ evs.map shapeOf = actionsOf i := by
  rw [exec_eq]
  cases he : encode i with
  | request w =>
    obtain ⟨evs, ht, hs⟩ := carryOut_planOf_trace i s
    exact ⟨_, evs, rfl, ht, hs⟩
  | wire op =>
    obtain ⟨evs, ht, hs⟩ := emitAll_trace (itemActions (.opcode op)) s
    refine ⟨_, evs, rfl, ht, ?_⟩
    simpa [actionsOf_of_perform (planOf_of_encode_wire he)] using hs

/-! ## Waits that stand apart

In time stamps two WAITs in a row bind only as the longer of them, and one before the first event binds nothing
(`timingKept`). Where neither occurs, the waits add up. -/

/-- The duration of an action that is a WAIT, 0 for any other. -/
def waitOf : Action → Nat
  | .wait t => t
  | _ => 0

/-- The sum of the WAIT durations of a list of actions. -/
def waitSum (acts : List Action) : Nat := (acts.map waitOf).sum

@[simp] theorem waitSum_nil : waitSum [] = 0 := rfl

@[simp] theorem waitSum_cons (a : Action) (acts : List Action) : waitSum (a :: acts) = waitOf a + waitSum acts := rfl

@[simp] theorem waitSum_append (xs ys : List Action) : waitSum (xs ++ ys) = waitSum xs + waitSum ys := by
  simp [waitSum]

/-- The waits of a trace are those of its actions. -/
theorem waitTotal_eq_waitSum (evs : List WireEvent) : waitTotal evs = waitSum (evs.map shapeOf) := by
  induction evs with
  | nil => rfl
  | cons e evs ih => cases e <;> simp [waitTotal, shapeOf, waitOf, ih]

/-- Every WAIT directly follows another kind of action; `free` says whether a WAIT may stand first. -/
def waitsApart (free : Bool) : List Action → Bool
  | [] => true
  | .wait _ :: rest => free && waitsApart false rest
  | _ :: rest => waitsApart true rest

/-- Time stamps after an event at `p` put the response the wait due and all waits to come after it. -/
theorem add_waitTotal_le_of_timingKept_some {p due done : Nat} {free : Bool} {evs : List WireEvent}
    {stamps : List Nat} (hk : timingKept (some p) due evs stamps done = true)
    (ha : waitsApart free (evs.map shapeOf) = true) (hf : free = true → due = 0) :
    p + due + waitTotal evs ≤ done := by
  induction evs generalizing p due free stamps with
  | nil => cases stamps <;> simp_all [timingKept, waitTotal]
  | cons e evs ih =>
    cases e with
    | wait t =>
      obtain ⟨hfree, ha⟩ : free = true ∧ waitsApart false (evs.map shapeOf) = true := by
        simpa [waitsApart, shapeOf] using ha
      have hk : timingKept (some p) t evs stamps done = true := by simpa [timingKept, hf hfree] using hk
      have := ih hk ha (by simp)
      simp only [waitTotal, hf hfree]
      omega
    | _ =>
      cases stamps with
      | nil => simp [timingKept] at hk
      | cons x stamps =>
        obtain ⟨hx, hk⟩ : p + max Config.tStep due ≤ x ∧ timingKept (some x) 0 evs stamps done = true := by
          simpa [timingKept, distanceKept] using hk
        have := ih hk ha (fun _ => rfl)
        simp only [waitTotal]
        omega

/-- Time stamps from the first event on put the response all waits after it (R14, R276). -/
theorem first_add_waitTotal_le_of_timingKept {first done : Nat} {evs : List WireEvent} {stamps : List Nat}
    (hk : timingKept none 0 evs (first :: stamps) done = true) (ha : waitsApart false (evs.map shapeOf) = true) :
    first + waitTotal evs ≤ done := by
  cases evs with
  | nil => simp [timingKept] at hk
  | cons e evs =>
    cases e with
    | wait t => simp [waitsApart, shapeOf] at ha
    | _ =>
      have hk : timingKept (some first) 0 evs stamps done = true := by simpa [timingKept, distanceKept] using hk
      simpa [waitTotal] using add_waitTotal_le_of_timingKept_some hk ha (fun _ => rfl)

/-! ## The waits of the units (R130, R133, R150)

Every unit begins and ends with an action other than WAIT: it may follow anything, and a WAIT may follow it. -/

@[simp] theorem waitSum_bitsOutActions (n : Nat) (x : BitVec 8) : waitSum (bitsOutActions n x) = 100 * n := by
  induction n generalizing x with
  | zero => rfl
  | succ n ih => simp [bitsOutActions, bitOutActions, waitOf, tClkh, ih]; omega

@[simp] theorem waitSum_byteOutActions (x : BitVec 8) (n : Nat) : waitSum (byteOutActions x n) = 100 * n := by
  simp [byteOutActions, waitOf]

@[simp] theorem waitSum_opOutActions (op : BitVec 6) : waitSum (opOutActions op) = 600 := by
  simp [opOutActions, waitOf]

@[simp] theorem waitSum_byteInActions : waitSum byteInActions = 800 := rfl

@[simp] theorem waitsApart_bitsOutActions_append (n : Nat) (x : BitVec 8) (rest : List Action) :
    waitsApart true (bitsOutActions n x ++ rest) = waitsApart true rest := by
  induction n generalizing x with
  | zero => rfl
  | succ n ih => simpa [bitsOutActions, bitOutActions, waitsApart] using ih (x >>> 1)

@[simp] theorem waitsApart_byteOutActions_append (free : Bool) (x : BitVec 8) (n : Nat) (rest : List Action) :
    waitsApart free (byteOutActions x n ++ rest) = waitsApart true rest := by
  simp [byteOutActions, waitsApart]

@[simp] theorem waitsApart_opOutActions_append (free : Bool) (op : BitVec 6) (rest : List Action) :
    waitsApart free (opOutActions op ++ rest) = waitsApart true rest := by
  simp [opOutActions, waitsApart]

@[simp] theorem waitsApart_byteInActions_append (free : Bool) (rest : List Action) :
    waitsApart free (byteInActions ++ rest) = waitsApart true rest := rfl

/-! ## The waits of the instructions -/

/-- `repeat c { opOut(op) }` (R157). -/
theorem waits_replicate_opcode (free : Bool) (n : Nat) (op : BitVec 6) :
    waitsApart free (itemsActions (List.replicate n (.opcode op))) = true ∧
      waitSum (itemsActions (List.replicate n (.opcode op))) = 600 * n := by
  induction n generalizing free with
  | zero => exact ⟨rfl, rfl⟩
  | succ n ih =>
    obtain ⟨hapart, hsum⟩ := ih true
    refine ⟨by simpa [List.replicate_succ, itemActions] using hapart, ?_⟩
    simp only [List.replicate_succ, itemsActions_cons, itemActions, waitSum_append, waitSum_opOutActions, hsum]
    omega

/-- A SENDBYTE with a legal bit count is one byte unit; any other is rejected (R130, R231). -/
theorem actionsOf_sendbyte (v : BitVec 8) (n : BitVec 4) :
    actionsOf (.sendbyte v n) = if 4 ≤ n.toNat ∧ n.toNat ≤ 8 then itemsActions [.byteOut v n.toNat] else [] := by
  unfold actionsOf planOf planSendbyte legalBitCount
  by_cases h : 4 ≤ n.toNat ∧ n.toNat ≤ 8 <;> simp [h]

/-- No instruction begins with a WAIT or emits two in a row, and its waits add up to the last column of R277's table. -/
theorem waits_actionsOf (i : Instr) :
    waitsApart false (actionsOf i) = true ∧ waitSum (actionsOf i) = minimumWait i := by
  unfold minimumWait
  cases i with
  | sendbyte v n =>
    rw [actionsOf_sendbyte]
    simp only [pulseCount, longWait]
    split <;> simp [itemActions, waitsApart, -List.append_nil]
  | incaddr c =>
    obtain ⟨hapart, hsum⟩ := waits_replicate_opcode false c.toNat 0x06
    refine ⟨hapart, hsum.trans ?_⟩
    simp only [pulseCount, longWait]
    omega
  | program m =>
    cases m <;>
      simp [actionsOf, planOf, planProgram, itemActions, waitItem, waitOf, tPmid, t5ms, waitsApart, pulseCount,
        longWait, byMode, -List.append_nil]
  | bulkpgm m =>
    cases m <;>
      simp [actionsOf, planOf, planBulkpgm, bulkItems, itemActions, waitItem, waitOf, t5ms, waitsApart, pulseCount,
        longWait, byMode, -List.append_nil]
  | bulkdata m =>
    cases m <;>
      simp [actionsOf, planOf, planBulkdata, bulkItems, itemActions, waitItem, waitOf, t5ms, waitsApart, pulseCount,
        longWait, byMode, -List.append_nil]
  | _ =>
    simp [actionsOf, planOf, planSetdir, planSetlvl, planReadlvl, planReleaseall, planSendword, planReadbyte,
      planReadword, planSendop, planConfig, planLoadpgm, planLoaddata, planReadpgm, planReaddata, planResetaddr,
      planEnter, planExit, planHwreset, wordOutItems, wordInItems, itemActions, waitItem, waitOf, assertReset,
      assertPgm, deassertReset, deassertPgm, tPwr, waitsApart, pulseCount, longWait, -List.append_nil]

/-- Settles O51: the waits of an instruction stand apart, so its time stamps keep their sum, which is the minimum
wait. -/
theorem responseWaitsForEveryDelay : Obligations.ResponseWaitsForEveryDelay := by
  intro i s
  obtain ⟨t, evs, hexec, htrace, hshape⟩ := exec_trace i s
  obtain ⟨hapart, hsum⟩ := waits_actionsOf i
  refine ⟨t, evs, hexec, htrace, fun first done stamps hk => ?_⟩
  rw [← hshape] at hapart hsum
  rw [← hsum, ← waitTotal_eq_waitSum]
  exact first_add_waitTotal_le_of_timingKept hk hapart

end Sys2Proof.Machine

/-! The statements of spec/10_state.md: the trace accounts for the signal state (R34, R42), nothing transient outlives a
request (R30, R35), and a latch shows on the pin of an output only (R33, R40). -/

namespace Sys2Proof.Machine

open Sys2Proof.Slice0

/-! ## The trace accounts for DIR, LAT and the model faults (R34, R42) -/

theorem markLvl_eq_ite (d : PerSignal Dir) (sg : Signal) (f : FaultSet) :
    markLvl d sg f = if perGet d sg = .input then addFault f (.driveInput sg) else f := by
  unfold markLvl
  cases perGet d sg <;> rfl

theorem markSample_eq_ite (d : PerSignal Dir) (sg : Signal) (f : FaultSet) :
    markSample d sg f = if perGet d sg = .output then addFault f (.sampleOutput sg) else f := by
  unfold markSample
  cases perGet d sg <;> rfl

/-- The event an action appends to the trace has, replayed, the action's own effect on the signal state. -/
theorem replayEvent_of_emit (a : Action) (s : State) :
    ∃ e, (emit a s).trace = s.trace ++ [e] ∧
      replayEvent (s.dir, s.lat, s.faults) e = ((emit a s).dir, (emit a s).lat, (emit a s).faults) := by
  cases a with
  | lvl sg l => exact ⟨.lvl sg l, rfl, by simp [replayEvent, markLvl_eq_ite]⟩
  | sample sg => exact ⟨.sample sg (drawLevel s), rfl, by simp [replayEvent, markSample_eq_ite]⟩
  | dir sg d => exact ⟨.dir sg d, rfl, rfl⟩
  | drive sg l => exact ⟨.drive sg l, rfl, rfl⟩
  | relall => exact ⟨.relall, rfl, rfl⟩
  | wait t => exact ⟨.wait t, rfl, rfl⟩

theorem traceAccounts_emit (a : Action) {s : State} (h : TraceAccounts s) : TraceAccounts (emit a s) := by
  obtain ⟨e, htrace, hreplay⟩ := replayEvent_of_emit a s
  unfold TraceAccounts at h ⊢
  rw [htrace, emit_resets, List.foldl_concat, h, hreplay]

theorem traceAccounts_emitAll (acts : List Action) {s : State} (h : TraceAccounts s) :
    TraceAccounts (emitAll acts s) := by
  induction acts generalizing s with
  | nil => exact h
  | cons a acts ih => exact ih (traceAccounts_emit a h)

/-- Accepting and answering a request touch nothing the invariant speaks of. -/
theorem traceAccounts_carryOut (p : Plan) {s : State} (h : TraceAccounts s) : TraceAccounts (carryOut p s) := by
  cases p with
  | reject c => exact h
  | perform its k =>
    rw [carryOut_perform]
    exact traceAccounts_emitAll (itemsActions its) (s := accept s) h

/-- A reset begins a run: the empty trace accounts for the released signals and the fresh latches. -/
theorem traceAccounts_resetBlock (s : State) : TraceAccounts (resetBlock s) := rfl

/-- Settles O40: of all a step can do, only wire events touch what the invariant speaks of, and a reset begins anew. -/
theorem traceAccountsForSignalState : Obligations.TraceAccountsForSignalState := by
  intro s t h hstep
  rcases step_cases hstep with ⟨-, -, rfl⟩ | ⟨rest, -, -, rfl⟩ | ⟨w, rest, -, -, rfl⟩ | ⟨w, rest, c, -, -, -, rfl⟩ |
    ⟨w, rest, its, k, -, -, -, rfl⟩ | ⟨k, rest, -, -, rfl⟩ | ⟨k, rest, -, -, rfl⟩ | ⟨-, -, rfl⟩ |
    ⟨it, rest, -, -, rfl⟩
  · exact h
  · exact h
  · exact traceAccounts_carryOut (planOfWord w) (s := { s with port := rest }) h
  · exact traceAccounts_carryOut (.reject c) (s := { s with port := rest }) h
  · exact h
  · exact traceAccounts_resetBlock _
  · exact traceAccounts_resetBlock _
  · exact h
  · exact traceAccounts_emitAll (itemActions it) (s := { s with items := rest }) h

/-- Settles O41: the empty trace accounts for the state of power-up. -/
theorem traceAccountsAtReset : Obligations.TraceAccountsAtReset := rfl

/-! ## Nothing transient is kept between requests (R30, R35) -/

theorem quietWhenIdle_of_busy {s : State} (h : s.busy = true) : QuietWhenIdle s := by
  simp [QuietWhenIdle, h]

/-- An answered request leaves nothing transient. -/
theorem quietWhenIdle_answer (rs : List Response) (s : State) : QuietWhenIdle (answer rs s) :=
  fun _ => ⟨rfl, rfl, rfl⟩

/-- Every request that is carried out is answered, rejected ones included. -/
theorem quietWhenIdle_carryOut (p : Plan) (s : State) : QuietWhenIdle (carryOut p s) := by
  cases p with
  | perform its k => exact quietWhenIdle_answer _ _
  | reject c => exact quietWhenIdle_answer _ _

theorem quietWhenIdle_resetBlock (s : State) : QuietWhenIdle (resetBlock s) := fun _ => ⟨rfl, rfl, rfl⟩

theorem runItem_busy (it : Item) (s : State) : (runItem it s).busy = s.busy :=
  (emitAll_frame (itemActions it) s).1

/-- Settles O42: a step leaves the block idle as it was, answers, resets, or leaves it busy. -/
theorem nothingTransientPersists : Obligations.NothingTransientPersists := by
  intro s t h hstep
  rcases step_cases hstep with ⟨-, -, rfl⟩ | ⟨rest, -, -, rfl⟩ | ⟨w, rest, -, -, rfl⟩ | ⟨w, rest, c, -, -, -, rfl⟩ |
    ⟨w, rest, its, k, -, -, -, rfl⟩ | ⟨k, rest, -, -, rfl⟩ | ⟨k, rest, -, -, rfl⟩ | ⟨-, -, rfl⟩ |
    ⟨it, rest, hb, -, rfl⟩
  · exact h
  · exact h
  · exact quietWhenIdle_carryOut _ _
  · exact quietWhenIdle_carryOut _ _
  · exact quietWhenIdle_of_busy rfl
  · exact quietWhenIdle_resetBlock _
  · exact quietWhenIdle_resetBlock _
  · exact quietWhenIdle_answer _ _
  · exact quietWhenIdle_of_busy ((runItem_busy it _).trans hb)

/-- Settles O43: power-up leaves no units, samples or pending result. -/
theorem nothingTransientAtReset : Obligations.NothingTransientAtReset := fun _ => ⟨rfl, rfl, rfl⟩

/-- A request carried out reads none of the transient fields: acceptance empties the samples, no event reads the units
or the result kind, and the answer empties both. -/
theorem carryOut_with_transient (p : Plan) (s : State) (its : List Item) (bs : List Level) (k : RspKind) :
    carryOut p { s with items := its, samples := bs, rspKind := k } = carryOut p s := by
  cases p with
  | reject c => rfl
  | perform its' k' =>
    have haccept : accept { s with items := its, samples := bs, rspKind := k } =
        { ({ accept s with items := its } : State) with rspKind := k } := rfl
    rw [carryOut_perform, haccept, emitAll_with_rspKind, emitAll_with_items, carryOut_perform]
    rfl

/-- Settles O46: a request instruction is its plan carried out, which reads no transient field. -/
theorem leftoverBuffersNeverReachAResult : Obligations.LeftoverBuffersNeverReachAResult := by
  intro i w s its bs k hrequest
  simp only [exec_eq, hrequest, carryOut_with_transient]

/-! ## The latch and the pin (R33, R40) -/

theorem pin_of_input {s : State} {sg : Signal} (h : perGet s.dir sg = .input) : pin s sg = none := by
  simp [pin, h]

theorem pin_of_output {s : State} {sg : Signal} (h : perGet s.dir sg = .output) :
    pin s sg = some (perGet s.lat sg) := by
  simp [pin, h]

@[simp] theorem hasFault_addFault_same (f : FaultSet) (m : ModelFault) : hasFault (addFault f m) m = true := by
  cases m <;> simp [hasFault, addFault]

/-- A request of one event: the event after acceptance, then the response. -/
theorem carryOut_event (a : Action) (k : RspKind) (s : State) :
    carryOut (.perform [.event a] k) s = complete k (emit a (accept s)) := rfl

/-- Settles O17: SETLVL writes the latch and marks the input, whose pin stays released; SETDIR OUTPUT keeps the latch
and shows it. -/
theorem latchShowsOnlyOnAnOutput : Obligations.LatchShowsOnlyOnAnOutput := by
  intro sg l s hinput
  refine ⟨_, _, rfl, pin_of_input ?_, ?_, rfl, (pin_of_output ?_).trans (congrArg some ?_)⟩
  · exact hinput
  · simp [planSetlvl, carryOut_event, complete, markLvl, hinput]
  · simp [planSetdir, carryOut_event, complete]
  · simp [planSetdir, planSetlvl, carryOut_event, complete]

end Sys2Proof.Machine

/-! The statements of spec/20_memory.md: signal writes are idempotent (R68), and a request followed unit by unit ends
where its one step ends (R64, R66). -/

namespace Sys2Proof.Machine

/-! ## Signal writes (R68) -/

/-- Settles O18: DIR and LVL write one value over itself, LVL's mark is set once, and RELALL sets all of DIR. -/
theorem signalWritesAreIdempotent : Obligations.SignalWritesAreIdempotent := by
  rintro i s (⟨sg, d, rfl⟩ | ⟨sg, l, rfl⟩ | rfl)
  all_goals refine ⟨_, _, rfl, rfl, ?_⟩
  · simp [planSetdir, carryOut_event, complete]
  · simp [planSetlvl, carryOut_event, complete]
  · simp [planReleaseall, carryOut_event, complete]

/-! ## A request followed unit by unit (R64, R66) -/

/-- No unit reads the units still to come or the result kind, and the answer empties both. -/
theorem complete_runItems_with_transient (k k' : RspKind) (its its' : List Item) (s : State) :
    complete k (runItems its { s with items := its', rspKind := k' }) = complete k (runItems its s) := by
  have hsplit : ({ s with items := its', rspKind := k' } : State) =
      { ({ s with items := its' } : State) with rspKind := k' } := rfl
  simp only [runItems_eq_emitAll]
  rw [hsplit, emitAll_with_rspKind, emitAll_with_items]
  rfl

/-- Without a reset at the port, a busy block runs its next unit. -/
theorem step_of_busy_cons {s : State} {it : Item} {its : List Item} (hitems : s.items = it :: its)
    (hbusy : s.busy = true) (hport : ∀ k r, s.port ≠ .reset k :: r) :
    step s = .next (runItem it { s with items := its }) := by
  rw [step, if_pos hbusy, stepBusy_eq s hport, advance_eq, hitems]

/-- Without a reset at the port, a busy block with no unit left answers. -/
theorem step_of_busy_nil {s : State} (hitems : s.items = []) (hbusy : s.busy = true)
    (hport : ∀ k r, s.port ≠ .reset k :: r) : step s = .next (complete s.rspKind s) := by
  rw [step, if_pos hbusy, stepBusy_eq s hport, advance_eq, hitems]

/-- Without a reset at the port, an operation in progress is answered after a step for each unit left and one more. -/
theorem run_of_busy (its : List Item) (s : State) (hitems : s.items = its) (hbusy : s.busy = true)
    (hport : ∀ k r, s.port ≠ .reset k :: r) :
    Host.Core.run core (its.length + 1) s = .next (complete s.rspKind (runItems its s)) := by
  induction its generalizing s with
  | nil => exact run_succ (step_of_busy_nil hitems hbusy hport) 0
  | cons it its ih =>
    obtain ⟨hbusy', hitems', hkind, -, -, hport', -⟩ := emitAll_frame (itemActions it) { s with items := its }
    rw [List.length_cons, run_succ (step_of_busy_cons hitems hbusy hport), runItem,
      ih _ hitems' (hbusy'.trans hbusy) (by rwa [hport']), hkind]
    exact congrArg _ (complete_runItems_with_transient s.rspKind s.rspKind (it :: its) its s)

/-- Settles O47: a rejected request is answered in its first step, and an accepted one when its units have run; what
acceptance notes of them is nothing the answer keeps. -/
theorem unitByUnitRefinesOneStep : Obligations.UnitByUnitRefinesOneStep := by
  intro s w rest hidle _ hrest
  have hone : step { s with port := .request w :: rest } =
      .next (carryOut (planOfWord w) { s with port := rest }) := by
    simp [step, hidle, stepIdle, runRequest_eq]
  have hstart : step { s with port := .requestStepwise w :: rest } =
      .next (startRequest w { s with port := rest }) := by
    simp [step, hidle, stepIdle]
  rw [startRequest_eq] at hstart
  cases hplan : planOfWord w with
  | reject c =>
    rw [hplan] at hone hstart
    exact ⟨1, _, hone, run_succ hstart 0⟩
  | perform its k =>
    rw [hplan] at hone hstart
    refine ⟨its.length + 1 + 1, _, hone, (run_succ hstart _).trans ?_⟩
    rw [run_of_busy its _ rfl rfl hrest]
    exact congrArg _ (complete_runItems_with_transient k k its its (accept { s with port := rest }))

end Sys2Proof.Machine

/-! The statements of spec/30_encoding.md: ignored bits have no effect (R82, R85), one response per request (R80, R84),
a presented request waits while the block is busy (R97), and a wire opcode is one opcode unit (R90, R91). -/

namespace Sys2Proof

open Sys2Proof.Slice0

/-! ## The fields of a masked word (R81, R82) -/

/-- A mask that is all ones over a field keeps the field. -/
theorem extractLsb'_and_of_allOnes {n l a : Nat} {m : BitVec n} (w : BitVec n)
    (hm : m.extractLsb' a l = BitVec.allOnes l) : (w &&& m).extractLsb' a l = w.extractLsb' a l := by
  rw [BitVec.extractLsb'_and, hm, BitVec.and_allOnes]

theorem dField_and {w m : ReqWord} (hm : dField m = BitVec.allOnes 16) : dField (w &&& m) = dField w :=
  extractLsb'_and_of_allOnes w hm

theorem aField_and {w m : ReqWord} (hm : aField m = BitVec.allOnes 4) : aField (w &&& m) = aField w :=
  extractLsb'_and_of_allOnes w hm

theorem byteField_and {w m : ReqWord} (hm : byteField m = BitVec.allOnes 8) : byteField (w &&& m) = byteField w := by
  unfold byteField dField at *
  rw [BitVec.extractLsb'_and, extractLsb'_and_of_allOnes _ hm]

theorem opcodeField_and {w m : ReqWord} (hm : opcodeField m = BitVec.allOnes 6) :
    opcodeField (w &&& m) = opcodeField w := by
  unfold opcodeField dField at *
  rw [BitVec.extractLsb'_and, extractLsb'_and_of_allOnes _ hm]

theorem signalField_and {w m : ReqWord} (hm : (aField m).extractLsb' 0 2 = BitVec.allOnes 2) :
    signalField (w &&& m) = signalField w := by
  unfold signalField aField at *
  rw [BitVec.extractLsb'_and, extractLsb'_and_of_allOnes _ hm]

theorem valueField_and {w m : ReqWord} (hm : valueField m = true) : valueField (w &&& m) = valueField w := by
  unfold valueField aField at *
  rw [BitVec.extractLsb'_and, BitVec.getLsbD_and, hm, Bool.and_true]

theorem modeField_and {w m : ReqWord} (hm : (aField m).getLsbD 0 = true) : modeField (w &&& m) = modeField w := by
  unfold modeField aField at *
  rw [BitVec.extractLsb'_and, BitVec.getLsbD_and, hm, Bool.and_true]

/-! ## Decoding looks at the used bits only (R85) -/

/-- Every format uses the whole OP field, a reserved OP's too (R82, R87). -/
theorem opField_and_usedBits (w : ReqWord) (op : BitVec 8) : opField (w &&& usedBits op) = opField w := by
  apply extractLsb'_and_of_allOnes
  unfold usedBits
  split_ifs <;> rfl

/-- Clearing the bits its operation ignores leaves what a word decodes to: the used bits cover every field that the
arm of its OP reads. -/
theorem decodeRequest_and_usedBits (w : ReqWord) : decodeRequest (w &&& usedBits (opField w)) = decodeRequest w := by
  unfold decodeRequest
  rw [opField_and_usedBits]
  split
  case h_23 => rfl
  all_goals
    rename_i hcode
    have hop := congrArg (BitVec.ofNat 8) hcode
    simp only [BitVec.ofNat_toNat, BitVec.setWidth_eq] at hop
    simp (disch := decide) [usedBits, hop, signalField_and, valueField_and, modeField_and, aField_and, dField_and,
      byteField_and, opcodeField_and]

/-- Words equal on the bits the operation of one of them uses have the same OP, so they decode alike. -/
theorem decodeRequest_eq_of_usedBits {w w' : ReqWord}
    (h : w &&& usedBits (opField w) = w' &&& usedBits (opField w)) : decodeRequest w = decodeRequest w' := by
  have hop : opField w = opField w' := by
    rw [← opField_and_usedBits w (opField w), h, opField_and_usedBits]
  calc decodeRequest w
      = decodeRequest (w &&& usedBits (opField w)) := (decodeRequest_and_usedBits w).symm
    _ = decodeRequest (w' &&& usedBits (opField w')) := by rw [h, hop]
    _ = decodeRequest w' := decodeRequest_and_usedBits w'

end Sys2Proof

namespace Sys2Proof.Machine

open Sys2Proof.Slice0

/-! ## The request port (R80, R84, R85, R97) -/

/-- An idle block carries out the plan of the word presented to it. -/
theorem step_of_idle_request {s : State} {w : ReqWord} {rest : List PortInput} (hidle : s.busy = false)
    (hport : s.port = .request w :: rest) : step s = .next (carryOut (planOfWord w) { s with port := rest }) := by
  simp [step, hidle, stepIdle, hport, runRequest_eq]

/-- Settles O4: the step reads of a word what it decodes to, and that the used bits fix. -/
theorem ignoredBitsHaveNoEffect : Obligations.IgnoredBitsHaveNoEffect := by
  intro w w' s rest hidle hbits
  have hplan : planOfWord w = planOfWord w' := by
    unfold planOfWord
    rw [decodeRequest_eq_of_usedBits hbits]
  have hstep (v : ReqWord) : step { s with port := .request v :: rest } =
      .next (carryOut (planOfWord v) { s with port := rest }) :=
    step_of_idle_request (s := { s with port := .request v :: rest }) hidle rfl
  rw [hstep, hstep, hplan]

/-- Every result but that of a wire opcode is one response (R84). -/
theorem responsesOf_eq_singleton {k : RspKind} (h : k ≠ .silent) (bs : List Level) : ∃ r, responsesOf k bs = [r] := by
  cases k with
  | silent => exact absurd rfl h
  | zero | level | byte | word => exact ⟨_, rfl⟩

/-- Every request operation that is performed returns a result (R84). -/
theorem rspKind_ne_silent_of_request {i : Instr} {w : ReqWord} {its : List Item} {k : RspKind}
    (hrequest : encode i = .request w) (hplan : planOf i = .perform its k) : k ≠ .silent := by
  rintro rfl
  cases i with
  | sendbyte v n =>
    simp only [planOf, planSendbyte] at hplan
    split at hplan <;> cases hplan
  | program m => cases m <;> cases hplan
  | _ => cases hplan <;> cases hrequest

/-- No plan of a request word is silent. -/
theorem rspKind_ne_silent_of_planOfWord {w : ReqWord} {its : List Item} {k : RspKind}
    (hplan : planOfWord w = .perform its k) : k ≠ .silent := by
  unfold planOfWord at hplan
  cases hdecode : decodeRequest w with
  | error e => simp [hdecode] at hplan
  | ok i =>
    obtain ⟨w', hrequest⟩ := encode_of_decodeRequest hdecode
    exact rspKind_ne_silent_of_request hrequest (by simpa [hdecode] using hplan)

/-- A request carried out leaves the block idle and the port as it was, and gives one response: the rejection, or the
result of the operation. -/
theorem carryOut_planOfWord_answers (w : ReqWord) (s : State) :
    ∃ r, (carryOut (planOfWord w) s).responses = s.responses ++ [r] ∧ (carryOut (planOfWord w) s).busy = false ∧
      (carryOut (planOfWord w) s).port = s.port := by
  cases hplan : planOfWord w with
  | reject c => exact ⟨rejection c, rfl, rfl, rfl⟩
  | perform its k =>
    obtain ⟨-, -, -, hresponses, -, hport, -⟩ := emitAll_frame (itemsActions its) (accept s)
    obtain ⟨r, hr⟩ := responsesOf_eq_singleton (rspKind_ne_silent_of_planOfWord hplan)
      (emitAll (itemsActions its) (accept s)).samples
    rw [carryOut_perform]
    exact ⟨r, by simp [complete, hr, hresponses], rfl, hport⟩

/-- Settles O9: the step carries the word's plan out, and every plan of a word gives one response. -/
theorem oneResponsePerRequest : Obligations.OneResponsePerRequest := by
  intro s w rest hidle hport
  obtain ⟨r, hresponses, hbusy, hrest⟩ := carryOut_planOfWord_answers w { s with port := rest }
  exact ⟨_, r, step_of_idle_request hidle hport, hresponses, hbusy, hrest⟩

/-- Settles O10: a request at the port is no reset, so the step is one unit, which changes neither the port nor the
responses, or the answer. -/
theorem presentedRequestWaitsWhileBusy : Obligations.PresentedRequestWaitsWhileBusy := by
  intro s p w rest hbusy hp hport
  have hnoReset : ∀ k r, s.port ≠ .reset k :: r := by
    rcases hp with rfl | rfl <;> simp [hport]
  cases hitems : s.items with
  | nil =>
    exact ⟨_, step_of_busy_nil hitems hbusy hnoReset, rfl, rfl, fun hne => absurd rfl hne, fun _ => ⟨rfl, rfl⟩⟩
  | cons it its =>
    obtain ⟨hbusy', hitems', -, hresponses, hended, hport', -⟩ :=
      emitAll_frame (itemActions it) { s with items := its }
    exact ⟨_, step_of_busy_cons hitems hbusy hnoReset, hport', hended,
      fun _ => ⟨hbusy'.trans hbusy, hresponses, hitems'⟩, fun hnil => nomatch hnil⟩

/-! ## Wire opcodes (R90, R91) -/

/-- Zero-extending an opcode to the byte that is sent keeps its six bits (R150). -/
theorem lowBits_zeroExtend_six (op : BitVec 6) : lowBits (op.zeroExtend 8) 6 = (List.range 6).map op.getLsbD := by
  refine List.map_congr_left fun j hj => ?_
  have : j < 8 := (List.mem_range.mp hj).trans (by decide)
  simp [this]

/-- The mark of CLOCK's LVL events is the CLOCK mark (R112). -/
theorem markLvl_clock (d : PerSignal Dir) (f : FaultSet) : markLvl d .clock f = clockMark d f :=
  markLvl_eq_ite d .clock f

/-- An opcode unit's effect, in the events of the rules (R91, R150). -/
theorem runItem_opcode (op : BitVec 6) (s : State) : runItem (.opcode op) s = unitSent s (opcodeOut op) := by
  rw [runItem, itemActions, emitAll_opOut, lowBits_zeroExtend_six, markLvl_clock]
  rfl

/-- Settles O32: a wire opcode's meaning is its one opcode unit. -/
theorem wireOpcodesTravelAsOneUnit : Obligations.WireOpcodesTravelAsOneUnit := by
  intro i op s hwire
  simp only [exec_eq, hwire, runItem_opcode]

end Sys2Proof.Machine

/-! The statements of spec/40_signal.md: the wire events (R111 to R116), the signal requests (R117 to R120), and the
samples an operation owes its response (R119, R133, R134). -/

namespace Sys2Proof.Machine

open Sys2Proof.Slice0

/-! ## The samples of an operation (R119, R133, R134) -/

/-- How many levels a list of actions samples. -/
def samplesIn (acts : List Action) : Nat := (acts.map fun a => samplesOf (.event a)).sum

@[simp] theorem samplesIn_nil : samplesIn [] = 0 := rfl

@[simp] theorem samplesIn_cons (a : Action) (acts : List Action) :
    samplesIn (a :: acts) = samplesOf (.event a) + samplesIn acts := rfl

@[simp] theorem samplesIn_append (xs ys : List Action) : samplesIn (xs ++ ys) = samplesIn xs + samplesIn ys := by
  simp [samplesIn]

/-- Only a SAMPLE takes a level (R115). -/
theorem emit_samples_length (a : Action) (s : State) :
    (emit a s).samples.length = s.samples.length + samplesOf (.event a) := by
  cases a <;> simp [samplesOf]

theorem emitAll_samples_length (acts : List Action) (s : State) :
    (emitAll acts s).samples.length = s.samples.length + samplesIn acts := by
  induction acts generalizing s with
  | nil => rfl
  | cons a acts ih => rw [emitAll_cons, ih, emit_samples_length, samplesIn_cons, Nat.add_assoc]

/-- Sending samples nothing, whatever the bit count (R130). -/
@[simp] theorem samplesIn_bitsOutActions (n : Nat) (x : BitVec 8) : samplesIn (bitsOutActions n x) = 0 := by
  induction n generalizing x with
  | zero => rfl
  | succ n ih => simp [bitsOutActions, bitOutActions, samplesOf, ih]

@[simp] theorem samplesIn_byteOutActions (x : BitVec 8) (n : Nat) : samplesIn (byteOutActions x n) = 0 := by
  simp [byteOutActions, samplesOf]

/-- A unit's events sample as many levels as the unit is counted for. -/
theorem samplesIn_itemActions (it : Item) : samplesIn (itemActions it) = samplesOf it := by
  cases it with
  | opcode op => simp [itemActions, opOutActions, samplesOf]
  | byteOut x n => exact samplesIn_byteOutActions x n
  | byteIn => rfl
  | event a => rfl

theorem runItem_samples_length (it : Item) (s : State) :
    (runItem it s).samples.length = s.samples.length + samplesOf it := by
  rw [runItem, emitAll_samples_length, samplesIn_itemActions]

/-- The units of every instruction sample as many levels as its result is made of. -/
theorem samplesOf_planOf {i : Instr} {its : List Item} {k : RspKind} (hplan : planOf i = .perform its k) :
    (its.map samplesOf).sum = samplesWanted k := by
  cases i with
  | sendbyte v n =>
    simp only [planOf, planSendbyte] at hplan
    split at hplan <;> cases hplan
    rfl
  | incaddr c =>
    cases hplan
    simp [samplesOf, samplesWanted]
  | program m | bulkpgm m | bulkdata m => cases m <;> cases hplan <;> rfl
  | _ => cases hplan; rfl

theorem samplesOf_planOfWord {w : ReqWord} {its : List Item} {k : RspKind} (hplan : planOfWord w = .perform its k) :
    (its.map samplesOf).sum = samplesWanted k := by
  unfold planOfWord at hplan
  split at hplan
  · exact samplesOf_planOf hplan
  · cases hplan

theorem samplesAddUp_of_idle {s : State} (h : s.busy = false) : SamplesAddUp s := by
  simp [SamplesAddUp, h]

/-- A request carried out is answered, rejected ones included, so nothing is in progress after it. -/
theorem carryOut_busy (p : Plan) (s : State) : (carryOut p s).busy = false := by
  cases p <;> rfl

/-- Acceptance has sampled nothing yet, so the plan's units owe all the result needs. -/
theorem samplesAddUp_accept {w : ReqWord} {its : List Item} {k : RspKind} (hplan : planOfWord w = .perform its k)
    (s : State) : SamplesAddUp { accept s with items := its, rspKind := k } := by
  intro _
  simpa using samplesOf_planOfWord hplan

/-- The levels a unit samples move from those to come to those taken. -/
theorem samplesAddUp_runItem {s : State} {it : Item} {rest : List Item} (h : SamplesAddUp s) (hbusy : s.busy = true)
    (hitems : s.items = it :: rest) : SamplesAddUp (runItem it { s with items := rest }) := by
  obtain ⟨-, hitems', hkind, -⟩ := emitAll_frame (itemActions it) { s with items := rest }
  intro _
  have hsum := h hbusy
  rw [hitems, List.map_cons, List.sum_cons] at hsum
  rw [runItem_samples_length, runItem, hitems', hkind, Nat.add_assoc]
  exact hsum

/-- Settles O44: an operation begins with its plan's units, each unit samples what it was counted for, and every other
step leaves the block idle. -/
theorem samplesAddUpToTheResponse : Obligations.SamplesAddUpToTheResponse := by
  intro s t h hstep
  rcases step_cases hstep with ⟨-, -, rfl⟩ | ⟨rest, -, -, rfl⟩ | ⟨w, rest, -, -, rfl⟩ | ⟨w, rest, c, -, -, -, rfl⟩ |
    ⟨w, rest, its, k, -, -, hplan, rfl⟩ | ⟨k, rest, -, -, rfl⟩ | ⟨k, rest, -, -, rfl⟩ | ⟨-, -, rfl⟩ |
    ⟨it, rest, hbusy, hitems, rfl⟩
  · exact h
  · exact h
  · exact samplesAddUp_of_idle (carryOut_busy _ _)
  · exact samplesAddUp_of_idle (carryOut_busy _ _)
  · exact samplesAddUp_accept hplan _
  · exact samplesAddUp_of_idle rfl
  · exact samplesAddUp_of_idle rfl
  · exact samplesAddUp_of_idle rfl
  · exact samplesAddUp_runItem h hbusy hitems

/-! ## The wire events (R111 to R116) -/

/-- The pin in the statements' form: its latch on an output, released on an input (R33). -/
theorem pin_eq_ite (s : State) (sg : Signal) :
    pin s sg = if perGet s.dir sg = .output then some (perGet s.lat sg) else none := by
  unfold pin
  cases perGet s.dir sg <;> rfl

/-- The pins are a matter of DIR and LAT alone (R33). -/
theorem pin_congr {s t : State} (hdir : t.dir = s.dir) (hlat : t.lat = s.lat) (sg : Signal) : pin t sg = pin s sg := by
  unfold pin
  rw [hdir, hlat]

@[simp] theorem perGet_allInput (sg : Signal) : perGet allInput sg = .input := by cases sg <;> rfl

/-- Settles O12: the whole-state equations are the events' definitions, and each pin follows from DIR and LAT after
the event. -/
theorem pinEventsActOnTheSignalState : Obligations.PinEventsActOnTheSignalState := by
  intro sg d l s
  refine ⟨⟨rfl, ?_⟩, ⟨?_, ?_⟩, ⟨rfl, ?_⟩, rfl, ?_⟩
  · simp [pin_eq_ite]
  · rw [← markLvl_eq_ite]
    rfl
  · simp [pin_eq_ite]
  · simp [pin_eq_ite]
  · exact pin_of_input (perGet_allInput sg)

/-- The next level the environment shows is the one a SAMPLE draws (R11, R12). -/
theorem upcoming_one (s : State) : upcoming s 1 = [drawLevel s] := by
  unfold upcoming drawLevel
  cases s.draws <;> rfl

/-- Drawing takes one level off. -/
theorem afterDraw_eq_drawnOff (s : State) : afterDraw s = drawnOff 1 s := by
  cases hdraws : s.draws <;> simp [afterDraw, drawnOff, hdraws]

/-- A SAMPLE binds the level drawn and marks an output (R115, R233). -/
theorem emit_sample_eq (sg : Signal) (s : State) :
    emit (.sample sg) s = { drawnOff 1 s with
      faults := if perGet s.dir sg = .output then addFault s.faults (.sampleOutput sg) else s.faults
      samples := s.samples ++ [drawLevel s]
      trace := s.trace ++ [.sample sg (drawLevel s)] } := by
  rw [← afterDraw_eq_drawnOff, ← markSample_eq_ite]
  rfl

/-- An event other than WAIT takes the next stamp and keeps its distance from the one before (R14). -/
theorem timingKept_cons {e : WireEvent} (he : ∀ u, e ≠ .wait u) (last : Option Nat) (due : Nat)
    (rest : List WireEvent) (x : Nat) (stamps : List Nat) (done : Nat) :
    timingKept last due (e :: rest) (x :: stamps) done =
      (distanceKept last due x && timingKept (some x) 0 rest stamps done) := by
  cases e with
  | wait t => exact absurd rfl (he t)
  | _ => rfl

/-- A WAIT bounds the time between its two neighbours, beside `T_STEP` (R14, R116). -/
theorem le_of_timingKept_wait {t x y done : Nat} {before after : WireEvent} (hbefore : ∀ u, before ≠ .wait u)
    (hafter : ∀ u, after ≠ .wait u) (h : timingKept none 0 [before, .wait t, after] [x, y] done = true) :
    x + t ≤ y ∧ x + Config.tStep ≤ y := by
  rw [timingKept_cons hbefore, timingKept, timingKept_cons hafter] at h
  obtain ⟨hdistance, -⟩ : x + max Config.tStep t ≤ y ∧ timingKept (some y) 0 [] [] done = true := by
    simpa [distanceKept] using h
  omega

/-- Settles O55: a SAMPLE and a WAIT leave DIR and LAT, so every pin, and a WAIT's time is kept by the stamps. -/
theorem sampleAndWaitChangeNoSignal : Obligations.SampleAndWaitChangeNoSignal := by
  refine ⟨fun sg s => ⟨⟨drawLevel s, upcoming_one s, emit_sample_eq sg s⟩, ?_⟩, fun t s => ⟨rfl, ?_⟩, ?_⟩
  · exact pin_congr rfl rfl
  · exact pin_congr rfl rfl
  · intro t x y done before after hbefore hafter
    exact le_of_timingKept_wait hbefore hafter

/-! ## The signal requests (R117 to R120) -/

/-- `s = A[1:0]` is `req[9:8]` (R81, R82). -/
theorem signalField_eq (w : ReqWord) : signalField w = signalOfCode (w.extractLsb' 8 2) :=
  congrArg signalOfCode (extractLsb'_extractLsb' w 8 4 0 2 (by decide))

/-- `v = A[2]` is `req[10]` (R81, R82). -/
theorem valueField_eq (w : ReqWord) : valueField w = w.getLsbD 10 := by
  simp [valueField, aField]

/-- Settles O13: OP 0x01 selects SETDIR, whose one event is DIR. -/
theorem setdirWritesOneDirection : Obligations.SetdirWritesOneDirection := by
  refine ⟨fun w hop => ?_, fun sg d s => rfl⟩
  rw [← signalField_eq, ← valueField_eq]
  simp [decodeRequest, opField, hop]

/-- Settles O14: OP 0x02 selects SETLVL, whose one event is LVL, with its mark. -/
theorem setlvlWritesOneLatch : Obligations.SetlvlWritesOneLatch := by
  refine ⟨fun w hop => ?_, fun sg l s => ?_⟩
  · rw [← signalField_eq, ← valueField_eq]
    simp [decodeRequest, opField, hop]
  · rw [← markLvl_eq_ite]
    rfl

/-- A sampled level as a response's data: HIGH = 1, LOW = 0 (R119). -/
theorem levelData_eq_ite (b : Level) : levelData b = if b = .high then 0x0001 else 0x0000 := by
  cases b <;> rfl

/-- Settles O15: OP 0x03 selects READLVL, whose one event is SAMPLE, and whose response is the level it drew. -/
theorem readlvlReturnsTheSampledLevel : Obligations.ReadlvlReturnsTheSampledLevel := by
  refine ⟨fun w hop => ?_, fun sg s => ⟨drawLevel s, upcoming_one s, ?_⟩⟩
  · rw [← signalField_eq]
    simp [decodeRequest, opField, hop]
  · rw [exec_eq, ← levelData_eq_ite]
    simp only [encode, planOf, planReadlvl, carryOut_event, emit_sample_eq]
    rfl

/-- Settles O16: OP 0x04 selects RELEASEALL, whose one event is RELALL. -/
theorem releaseallReleasesEverySignal : Obligations.ReleaseallReleasesEverySignal := by
  refine ⟨fun w hop => ?_, fun s => rfl⟩
  simp [decodeRequest, opField, hop]

end Sys2Proof.Machine

/-! The statements of spec/41_codec.md: sending a byte and a word (R130, R131), reading them (R133, R134), the round
trip (R135) and the pulse count (R136). -/

namespace Sys2Proof.Machine

open Sys2Proof.Slice0

/-! ## Units out (R130, R131) -/

/-- A byte unit's effect, in the events of the rules (R130). -/
theorem runItem_byteOut (v : BitVec 8) {n : Nat} (hn : n ≠ 0) (s : State) :
    runItem (.byteOut v n) s = unitSent s (unitOut (byteBits v n)) := by
  obtain ⟨m, rfl⟩ := Nat.exists_eq_succ_of_ne_zero hn
  rw [runItem, itemActions, emitAll_byteOut, markLvl_clock]
  rfl

@[simp] theorem dataOutput_dataOutput (d : PerSignal Dir) : dataOutput (dataOutput d) = dataOutput d := rfl

@[simp] theorem sentLatches_sentLatches (l : PerSignal Level) : sentLatches (sentLatches l) = sentLatches l := rfl

/-- CLOCK's mark does not depend on DATA's direction (R112). -/
@[simp] theorem clockMark_dataOutput (d : PerSignal Dir) (f : FaultSet) :
    clockMark (dataOutput d) f = clockMark d f := rfl

/-- CLOCK's mark is set once. -/
@[simp] theorem clockMark_clockMark (d : PerSignal Dir) (f : FaultSet) :
    clockMark d (clockMark d f) = clockMark d f := by
  simp [← markLvl_clock]

/-- Two units out, one after the other, leave what one does, with the events of both. -/
theorem unitSent_unitSent (s : State) (xs ys : List WireEvent) :
    unitSent (unitSent s xs) ys = unitSent s (xs ++ ys) := by
  simp [unitSent]

/-- A request instruction is its plan carried out. -/
theorem exec_of_planOf {i : Instr} {w : ReqWord} {p : Plan} (hrequest : encode i = .request w) (hplan : planOf i = p)
    (s : State) : exec i s = .next (carryOut p s) := by
  rw [exec_eq, hrequest, hplan]

/-- A request whose units leave what units out leave is a sending request (R84, R267). -/
theorem carryOut_eq_sent {its : List Item} {s : State} {evs : List WireEvent}
    (h : runItems its (accept s) = unitSent (accept s) evs) : carryOut (.perform its .zero) s = sent s evs := by
  rw [carryOut, h]
  rfl

/-- A rejected request answers its cause and does nothing else (R231). -/
theorem carryOut_reject_eq_finished (c : Cause) (s : State) :
    carryOut (.reject c) s = finished s s.dir s.lat s.faults [] (rejection c) := by
  simp [carryOut_reject, answer, accept, finished]

/-- The frame's bits are those of `F`: start bit, fourteen data bits, stop bit (R93, R131). -/
theorem frameBits_eq (w : BitVec 16) : frameBits w = (List.range 16).map (frame w).getLsbD := by
  have hrange : List.range 16 = 0 :: ((List.range 14).map Nat.succ ++ [15]) := by decide
  have hdata : (List.range 14).map w.getLsbD = ((List.range 14).map Nat.succ).map (frame w).getLsbD := by
    rw [List.map_map]
    refine List.map_congr_left fun j hj => ?_
    have hj : j < 14 := List.mem_range.mp hj
    simp [frame, hj, show j + 1 < 16 by omega]
  rw [frameBits, hdata, hrange]
  simp [frame]

theorem byteBits_frameLow (w : BitVec 16) : byteBits (frameLow w) 8 = (frameBits w).take 8 := by
  rw [frameBits_eq]
  simp [byteBits, frameLow, List.range_succ]

theorem byteBits_frameHigh (w : BitVec 16) : byteBits (frameHigh w) 8 = (frameBits w).drop 8 := by
  rw [frameBits_eq]
  simp [byteBits, frameHigh, List.range_succ]

/-- A word out's effect, in the events of the rules (R131). -/
theorem runItems_wordOut (w : BitVec 16) (s : State) :
    runItems (wordOutItems w) s = unitSent s (frameOut w) := by
  rw [wordOutItems, runItems_cons, runItems_cons, runItems_nil, runItem_byteOut _ (by decide),
    runItem_byteOut _ (by decide), unitSent_unitSent, byteBits_frameLow, byteBits_frameHigh]
  rfl

/-- `v = D[7:0]` is `req[23:16]` (R81, R82). -/
theorem byteField_eq (w : ReqWord) : byteField w = w.extractLsb' 16 8 :=
  extractLsb'_extractLsb' w 16 16 0 8 (by decide)

/-- Settles O19: a legal bit count is one byte unit, any other a rejection. -/
theorem sendbyteClocksTheLowBitsOrIsRejected : Obligations.SendbyteClocksTheLowBitsOrIsRejected := by
  refine ⟨fun w hop => ?_, fun v n s hlow hhigh => ?_, fun v n s hillegal => ?_⟩
  · rw [← byteField_eq]
    simp [decodeRequest, opField, aField, hop]
  · have hplan : planOf (.sendbyte v n) = .perform [.byteOut v n.toNat] .zero := by
      simp [planOf, planSendbyte, legalBitCount, hlow, hhigh]
    have hunit : runItems [.byteOut v n.toNat] (accept s) = unitSent (accept s) (unitOut (byteBits v n.toNat)) :=
      runItem_byteOut v (by omega) (accept s)
    rw [exec_of_planOf rfl hplan, carryOut_eq_sent hunit]
  · have hcount : ¬(4 ≤ n.toNat ∧ n.toNat ≤ 8) := by omega
    have hplan : planOf (.sendbyte v n) = .reject .badBitcount := by
      simp [planOf, planSendbyte, legalBitCount, hcount]
    rw [exec_of_planOf rfl hplan, carryOut_reject_eq_finished]
    rfl

/-- Settles O20: a word out is the only thing SENDWORD does. -/
theorem sendwordClocksTheFrame : Obligations.SendwordClocksTheFrame := by
  refine ⟨fun w hop => ?_, fun w s => ?_⟩
  · simp [decodeRequest, opField, dField, hop]
  · have hexec : exec (.sendword w) s = .next (carryOut (.perform (wordOutItems w) .zero) s) :=
      exec_of_planOf rfl rfl s
    rw [hexec, carryOut_eq_sent (runItems_wordOut w (accept s))]

/-! ## Units in (R133, R134) -/

/-- What units in that sample `n` levels leave inside an operation: DATA an input, CLOCK LOW, the CLOCK mark, the
levels taken. -/
def unitRead (n : Nat) (evs : List WireEvent) (s : State) : State :=
  { drawnOff n s with
    dir := dataInput s.dir
    lat := readLatches s.lat
    faults := clockMark s.dir s.faults
    samples := s.samples ++ upcoming s n
    trace := s.trace ++ evs }

@[simp] theorem dataInput_dataInput (d : PerSignal Dir) : dataInput (dataInput d) = dataInput d := rfl

@[simp] theorem readLatches_readLatches (l : PerSignal Level) : readLatches (readLatches l) = readLatches l := rfl

@[simp] theorem clockMark_dataInput (d : PerSignal Dir) (f : FaultSet) :
    clockMark (dataInput d) f = clockMark d f := rfl

/-- A byte unit in's effect, in the events of the rules (R133). -/
theorem runItem_byteIn (s : State) : runItem .byteIn s = unitRead 8 (unitIn (upcoming s 8)) s := by
  rw [runItem, itemActions, emitAll_byteIn, markLvl_clock]
  rfl

theorem upcoming_length (s : State) (n : Nat) : (upcoming s n).length = n := nextLevels_length n _ _

/-- Accepting a request takes no level. -/
theorem upcoming_accept (s : State) (n : Nat) : upcoming (accept s) n = upcoming s n := rfl

/-- After `m` levels are taken, the environment shows those that follow them (R11, R12). -/
theorem upcoming_add (s : State) (m n : Nat) : upcoming s (m + n) = upcoming s m ++ upcoming (drawnOff m s) n :=
  nextLevels_add m n _ _

/-- Two units in, one after the other, leave what one does, with the levels and the events of both. -/
theorem unitRead_unitRead (m n : Nat) (xs ys : List WireEvent) (s : State) :
    unitRead n ys (unitRead m xs s) = unitRead (m + n) (xs ++ ys) s := by
  have hupcoming : upcoming (unitRead m xs s) n = upcoming (drawnOff m s) n := rfl
  have hdrawn : s.drawn + (m - s.draws.length) + (n - (s.draws.length - m)) =
      s.drawn + (m + n - s.draws.length) := by omega
  rw [unitRead, hupcoming]
  simp [unitRead, drawnOff, upcoming_add, hdrawn]

/-- A word in's effect, in the events of the rules (R134). -/
theorem runItems_wordIn (s : State) :
    runItems wordInItems s =
      unitRead 16 (unitIn ((upcoming s 16).take 8) ++ unitIn ((upcoming s 16).drop 8)) s := by
  have hsplit : upcoming s 16 = upcoming s 8 ++ upcoming (drawnOff 8 s) 8 := upcoming_add s 8 8
  have htake : (upcoming s 16).take 8 = upcoming s 8 := by rw [hsplit, List.take_left' (upcoming_length s 8)]
  have hdrop : (upcoming s 16).drop 8 = upcoming (drawnOff 8 s) 8 := by
    rw [hsplit, List.drop_left' (upcoming_length s 8)]
  rw [wordInItems, runItems_cons, runItems_cons, runItems_nil, runItem_byteIn, runItem_byteIn, unitRead_unitRead,
    htake, hdrop]
  rfl

/-- A request whose units leave what units in leave answers what its levels give (R84). -/
theorem carryOut_eq_read {its : List Item} {k : RspKind} {n : Nat} {evs : List WireEvent} {s : State} {r : Response}
    (hitems : runItems its (accept s) = unitRead n evs (accept s)) (hresponse : responsesOf k (upcoming s n) = [r]) :
    carryOut (.perform its k) s = drawnOff n (finished s (dataInput s.dir) (readLatches s.lat)
      (clockMark s.dir s.faults) evs r) := by
  rw [carryOut, hitems, complete, show (unitRead n evs (accept s)).samples = upcoming s n from rfl, hresponse]
  rfl

/-! ## The value of the levels read (R60, R133, R134) -/

/-- Bit `i` of a list of levels: the level at `i`, past its end 0. -/
def levelBitAt (ls : List Level) (i : Nat) : Bool := levelBit (ls.getD i .low)

@[simp] theorem levelBitAt_cons_zero (b : Level) (ls : List Level) : levelBitAt (b :: ls) 0 = levelBit b := rfl

@[simp] theorem levelBitAt_cons_succ (b : Level) (ls : List Level) (i : Nat) :
    levelBitAt (b :: ls) (i + 1) = levelBitAt ls i := rfl

theorem levelBitAt_of_length_le {ls : List Level} {i : Nat} (h : ls.length ≤ i) : levelBitAt ls i = false := by
  rw [levelBitAt, List.getD_eq_default _ _ h]
  rfl

theorem levelBitAt_drop (ls : List Level) (m i : Nat) : levelBitAt (ls.drop m) i = levelBitAt ls (m + i) := by
  simp [levelBitAt, List.getD_eq_getElem?_getD]

theorem levelBitAt_take (ls : List Level) (m i : Nat) :
    levelBitAt (ls.take m) i = (decide (i < m) && levelBitAt ls i) := by
  by_cases h : i < m
  · simp [levelBitAt, List.getD_eq_getElem?_getD, h]
  · rw [levelBitAt_of_length_le ((List.length_take_le m ls).trans (by omega))]
    simp [h]

theorem valueOf_cons (b : Level) (ls : List Level) : valueOf (b :: ls) = Nat.bit (levelBit b) (valueOf ls) := by
  cases b <;> simp [valueOf, levelBit, Nat.bit_val, Nat.add_comm]

/-- The value of a list of levels has the first in bit 0 (R60). -/
theorem testBit_valueOf (ls : List Level) (i : Nat) : (valueOf ls).testBit i = levelBitAt ls i := by
  induction ls generalizing i with
  | nil => simp [valueOf, levelBitAt_of_length_le]
  | cons b ls ih =>
    rw [valueOf_cons]
    cases i with
    | zero => exact Nat.testBit_bit_zero _ _
    | succ i => exact (Nat.testBit_bit_succ _ _ _).trans (ih i)

/-- One shift of the accumulator: bit 7 is the level, every other the bit above it (R133). -/
theorem getLsbD_shiftIn (acc : BitVec 8) (b : Level) {i : Nat} (hi : i < 8) :
    (shiftIn acc b).getLsbD i = if i = 7 then levelBit b else acc.getLsbD (i + 1) := by
  have htop : (0x80 : BitVec 8).getLsbD i = decide (i = 7) := by
    revert i
    decide
  rw [shiftIn, BitVec.getLsbD_or, BitVec.getLsbD_ushiftRight, Nat.add_comm 1 i]
  cases b with
  | low =>
    have : i = 7 → acc.getLsbD (i + 1) = false := fun h => BitVec.getLsbD_of_ge _ _ (by omega)
    simpa [levelBit] using mt this
  | high =>
    rw [levelBit, if_pos rfl, htop]
    by_cases h : i = 7 <;> simp [h]

/-- After levels are shifted in, bit `i` is the one their number further up, in the accumulator's eight old bits and then
the levels (R133). -/
theorem getLsbD_foldl_shiftIn (ls : List Level) (acc : BitVec 8) {i : Nat} (hi : i < 8) :
    (ls.foldl shiftIn acc).getLsbD i =
      if i + ls.length < 8 then acc.getLsbD (i + ls.length) else levelBitAt ls (i + ls.length - 8) := by
  induction ls generalizing acc with
  | nil => simp [hi]
  | cons b ls ih =>
    rw [List.foldl_cons, ih, List.length_cons]
    rcases Nat.lt_trichotomy (i + ls.length) 7 with h | h | h
    · rw [if_pos (by omega), if_pos (by omega), getLsbD_shiftIn _ _ (by omega), if_neg (by omega)]
      rfl
    · rw [if_pos (by omega), if_neg (by omega), getLsbD_shiftIn _ _ (by omega), if_pos h,
        show i + (ls.length + 1) - 8 = 0 by omega, levelBitAt_cons_zero]
    · rw [if_neg (by omega), if_neg (by omega),
        show i + (ls.length + 1) - 8 = i + ls.length - 8 + 1 by omega, levelBitAt_cons_succ]

/-- Eight levels replace all of the accumulator, the first in bit 0 (R133). -/
theorem getLsbD_byteOfSamples {ls : List Level} (hlength : ls.length = 8) (i : Nat) :
    (byteOfSamples ls).getLsbD i = levelBitAt ls i := by
  by_cases hi : i < 8
  · rw [byteOfSamples, getLsbD_foldl_shiftIn ls 0 hi, hlength, if_neg (by omega), Nat.add_sub_cancel]
  · rw [BitVec.getLsbD_of_ge _ _ (by omega), levelBitAt_of_length_le (by omega)]

/-- A word whose bits are a list's levels is the list's value. -/
theorem eq_ofNat_valueOf {n : Nat} {x : BitVec n} {ls : List Level}
    (h : ∀ i < n, x.getLsbD i = levelBitAt ls i) : x = BitVec.ofNat n (valueOf ls) := by
  refine BitVec.eq_of_getLsbD_eq fun i hi => ?_
  rw [h i hi, BitVec.getLsbD_ofNat, testBit_valueOf, decide_eq_true hi, Bool.true_and]

/-- READBYTE's data is the value of its eight levels (R133). -/
theorem responsesOf_byte {ls : List Level} (hlength : ls.length = 8) :
    responsesOf .byte ls = [⟨false, BitVec.ofNat 16 (valueOf ls)⟩] := by
  refine congrArg (fun x => [Response.mk false x]) (eq_ofNat_valueOf fun i hi => ?_)
  simp [hi, getLsbD_byteOfSamples hlength]

/-- The first level read is bit 0 of `raw`, the last bit 15 (R134). -/
theorem getLsbD_rawOfSamples {ls : List Level} (hlength : ls.length = 16) (i : Nat) :
    (rawOfSamples ls).getLsbD i = levelBitAt ls i := by
  rw [rawOfSamples, BitVec.getLsbD_append, getLsbD_byteOfSamples (by simp [hlength]),
    getLsbD_byteOfSamples (by simp [hlength])]
  by_cases hi : i < 8
  · rw [if_pos hi, levelBitAt_take, decide_eq_true hi, Bool.true_and]
  · rw [if_neg hi, levelBitAt_take, levelBitAt_drop, show 8 + (i - 8) = i by omega]
    by_cases hi' : i < 16
    · rw [decide_eq_true (by omega), Bool.true_and]
    · rw [levelBitAt_of_length_le (by omega), Bool.and_false]

/-- The shift and the mask cut the inner fourteen bits out (R134, R137). -/
theorem wordOfSamples_eq (ls : List Level) : wordOfSamples ls = (rawOfSamples ls).extractLsb' 1 14 := by
  rw [wordOfSamples, extractLsb'_and_of_allOnes _ rfl]
  ext i hi
  simp

/-- The 2nd to the 15th of sixteen levels (R134). -/
theorem levelBitAt_inner (ls : List Level) (i : Nat) :
    levelBitAt ((ls.drop 1).take 14) i = (decide (i < 14) && levelBitAt ls (1 + i)) := by
  rw [levelBitAt_take, levelBitAt_drop]

/-- READWORD's data is the value of the 2nd to the 15th of its sixteen levels (R134). -/
theorem responsesOf_word {ls : List Level} (hlength : ls.length = 16) :
    responsesOf .word ls = [⟨false, BitVec.ofNat 16 (valueOf ((ls.drop 1).take 14))⟩] := by
  refine congrArg (fun x => [Response.mk false x]) (eq_ofNat_valueOf fun i hi => ?_)
  rw [levelBitAt_inner, wordOfSamples_eq, BitVec.getLsbD_setWidth, BitVec.getLsbD_extractLsb',
    getLsbD_rawOfSamples hlength, decide_eq_true hi, Bool.true_and]

/-- Settles O21: READBYTE is one byte unit in, whose levels the accumulator takes. -/
theorem readbyteReturnsEightLevels : Obligations.ReadbyteReturnsEightLevels := by
  refine ⟨fun w hop => ?_, fun s => ?_⟩
  · simp [decodeRequest, opField, hop]
  · have hexec : exec .readbyte s = .next (carryOut (.perform [.byteIn] .byte) s) := exec_of_planOf rfl rfl s
    have hunit : runItems [.byteIn] (accept s) = unitRead 8 (unitIn (upcoming s 8)) (accept s) := by
      rw [runItems_cons, runItem_byteIn, runItems_nil, upcoming_accept]
    rw [hexec, carryOut_eq_read hunit (responsesOf_byte (upcoming_length s 8))]

/-- Settles O22: READWORD is a word in, whose inner fourteen levels are the word. -/
theorem readwordReturnsTheInnerFourteenLevels : Obligations.ReadwordReturnsTheInnerFourteenLevels := by
  refine ⟨fun w hop => ?_, fun s => ?_⟩
  · simp [decodeRequest, opField, hop]
  · have hexec : exec .readword s = .next (carryOut (.perform wordInItems .word) s) := exec_of_planOf rfl rfl s
    have hunits := runItems_wordIn (accept s)
    rw [upcoming_accept] at hunits
    rw [hexec, carryOut_eq_read hunits (responsesOf_word (upcoming_length s 16))]

/-! ## The round trip (R135) -/

@[simp] theorem sendPulses_nil : sendPulses [] = [] := rfl

@[simp] theorem sendPulses_cons (b : Bool) (bits : List Bool) :
    sendPulses (b :: bits) =
      [.lvl .data (levelOfBit b), .lvl .clock .high, .wait 100, .lvl .clock .low] ++ sendPulses bits := rfl

/-- With DATA an output, the pulses show their bits, whatever DATA is set to after them (R60). -/
theorem bitsOut_sendPulses (bits : List Bool) (l l' : Level) (rest : List WireEvent) :
    bitsOut .output l (sendPulses bits ++ .lvl .data l' :: rest) =
      bits.map levelOfBit ++ bitsOut .output l' rest := by
  induction bits generalizing l with
  | nil => simp [bitsOut]
  | cons b bits ih => simp [bitsOut, ih]

/-- A byte unit out shows its bits, whatever DATA was before it, and leaves DATA an output at LOW (R130). -/
theorem bitsOut_unitOut (d : Dir) (l : Level) (bits : List Bool) (rest : List WireEvent) :
    bitsOut d l (unitOut bits ++ rest) = bits.map levelOfBit ++ bitsOut .output .low rest := by
  simp [unitOut, bitsOut, bitsOut_sendPulses]

/-- SENDWORD's events show the frame's bits (R131). -/
theorem bitsOut_frameOut (d : Dir) (l : Level) (w : BitVec 16) :
    bitsOut d l (frameOut w) = (frameBits w).map levelOfBit := by
  have hnone := bitsOut_unitOut .output .low ((frameBits w).drop 8) []
  rw [List.append_nil] at hnone
  rw [frameOut, bitsOut_unitOut, hnone, bitsOut, List.append_nil, ← List.map_append, List.take_append_drop]

@[simp] theorem levelBit_levelOfBit (b : Bool) : levelBit (levelOfBit b) = b := by cases b <;> rfl

/-- Between start and stop bit, the frame carries `w[13:0]` (R93, R135). -/
theorem valueOf_frameBits (w : BitVec 16) :
    BitVec.ofNat 16 (valueOf ((((frameBits w).map levelOfBit).drop 1).take 14)) = w &&& 0x3FFF := by
  have hmask (i : Nat) (hi : i < 16) : (0x3FFF : BitVec 16).getLsbD i = decide (i < 14) := by
    revert i
    decide
  have hinner : (((frameBits w).map levelOfBit).drop 1).take 14 =
      (List.range 14).map fun i => levelOfBit (w.getLsbD i) := by
    simp [frameBits]
  refine (eq_ofNat_valueOf fun i hi => ?_).symm
  rw [hinner, BitVec.getLsbD_and, hmask i hi]
  by_cases hdata : i < 14
  · simp [levelBitAt, hdata]
  · rw [levelBitAt_of_length_le (by simpa using hdata), decide_eq_false hdata, Bool.and_false]

/-- Levels in store are those the environment shows (R12). -/
theorem upcoming_of_store (ls later : List Level) (s : State) :
    upcoming { s with draws := ls ++ later } ls.length = ls :=
  nextLevels_of_store ls later s.drawn

/-- Settles O23: the levels SENDWORD shows are the sixteen of the frame, all that READWORD takes. -/
theorem readwordInvertsSendword : Obligations.ReadwordInvertsSendword := by
  intro w s r later
  obtain ⟨-, hsend⟩ := sendwordClocksTheFrame
  obtain ⟨-, hread⟩ := readwordReturnsTheInnerFourteenLevels
  refine ⟨_, frameOut w, hsend w s, rfl, ?_⟩
  rw [bitsOut_frameOut]
  refine ⟨_, hread _, ?_, rfl⟩
  have hlevels : upcoming { r with draws := (frameBits w).map levelOfBit ++ later } 16 = (frameBits w).map levelOfBit :=
    upcoming_of_store _ later r
  rw [hlevels, valueOf_frameBits]
  rfl

/-! ## The pulse count (R136) -/

/-- Each pulse is complete when the next begins (R15). -/
theorem clockPulsesFrom_sendPulses (bits : List Bool) (rest : List WireEvent) :
    clockPulsesFrom none (sendPulses bits ++ rest) = bits.length + clockPulsesFrom none rest := by
  induction bits with
  | nil => simp
  | cons b bits ih =>
    simp [holdAfter, endsPulse, tClkh, ih]
    omega

theorem clockPulses_unitOut (bits : List Bool) : clockPulses (unitOut bits) = bits.length := by
  simp [clockPulses, unitOut, holdAfter, clockPulsesFrom_sendPulses]

/-- A unit in's events are those of its pulses after DATA is made an input (R133). -/
theorem unitIn_eq (ls : List Level) : unitIn ls = .dir .data .input :: samplingEvents ls := rfl

/-- Each sampling pulse is complete when the next begins (R15). -/
theorem clockPulsesFrom_samplingEvents (ls : List Level) : clockPulsesFrom none (samplingEvents ls) = ls.length := by
  induction ls with
  | nil => rfl
  | cons b ls ih => simp [holdAfter, endsPulse, ih, Nat.add_comm]

theorem clockPulses_unitIn (ls : List Level) : clockPulses (unitIn ls) = ls.length := by
  simp [clockPulses, unitIn_eq, holdAfter, clockPulsesFrom_samplingEvents]

/-- CLOCK rises once and falls once with each bit sent (R136). -/
theorem clockEvents_sendPulses (l : Level) (bits : List Bool) :
    ((sendPulses bits).filter fun e => e == .lvl .clock l).length = bits.length := by
  induction bits with
  | nil => rfl
  | cons b bits ih => cases l <;> simp [ih]

/-- CLOCK rises once and falls once with each level sampled (R136). -/
theorem clockEvents_unitIn (l : Level) (ls : List Level) :
    ((unitIn ls).filter fun e => e == .lvl .clock l).length = ls.length := by
  rw [unitIn_eq]
  induction ls with
  | nil => rfl
  | cons b ls ih => cases l <;> simpa using ih

theorem byteBits_length (v : BitVec 8) (n : Nat) : (byteBits v n).length = n := by simp [byteBits]

/-- Settles O24: a unit's events are its pulses between the setting of DATA before and, for a unit out, after them. -/
theorem codecUnitsPulseClockExactly : Obligations.CodecUnitsPulseClockExactly := by
  refine ⟨fun v n s hlow _ => ?_, fun s => ?_⟩
  · have hevents (l : Level) :
        ((.dir .data .output :: sendPulses (byteBits v n)).filter fun e => e == .lvl .clock l).length = n := by
      simp [clockEvents_sendPulses, byteBits_length]
    have hpulses : clockPulses (.dir .data .output :: sendPulses (byteBits v n) ++ [.lvl .data .low]) = n :=
      (clockPulses_unitOut (byteBits v n)).trans (byteBits_length v n)
    rw [runItem_byteOut v (by omega)]
    refine ⟨.dir .data .output :: sendPulses (byteBits v n), ?_, hpulses, hevents .high, hevents .low, rfl, rfl,
      rfl⟩
    simp [unitSent, unitOut]
  · rw [runItem_byteIn]
    refine ⟨unitIn (upcoming s 8), rfl, ?_, ?_, ?_, rfl, rfl⟩
    · rw [clockPulses_unitIn, upcoming_length]
    · rw [clockEvents_unitIn, upcoming_length]
    · rw [clockEvents_unitIn, upcoming_length]

end Sys2Proof.Machine

/-! The statements of spec/42_command_engine.md: the command sequencer's requests (R150 to R160), and no sampled level
steers the block (R163). -/

namespace Sys2Proof.Machine

open Sys2Proof.Slice0

/-! ## No sampled level steers the block (R163) -/

/-- Two states with one signal state, one set of model faults, traces equal but for the levels sampled, and responses
with equal `err` bits. -/
structure SameButForLevels (s t : State) : Prop where
  trace : s.trace.map shapeOf = t.trace.map shapeOf
  dir : s.dir = t.dir
  lat : s.lat = t.lat
  faults : s.faults = t.faults
  err : s.responses.map Response.err = t.responses.map Response.err

/-- The environment's levels are no part of the comparison. -/
theorem sameButForLevels_with_draws (s : State) (draws : List Level) (drawn : Nat) :
    SameButForLevels s { s with draws := draws, drawn := drawn } :=
  ⟨rfl, rfl, rfl, rfl, rfl⟩

/-- An event's effect on DIR, LAT and the marks depends on DIR, LAT and the marks alone (R111 to R116). -/
theorem SameButForLevels.emit {s t : State} (h : SameButForLevels s t) (a : Action) :
    SameButForLevels (emit a s) (emit a t) := by
  obtain ⟨htrace, hdir, hlat, hfaults, herr⟩ := h
  constructor
  case trace =>
    obtain ⟨e, he, hshape⟩ := emit_trace a s
    obtain ⟨e', he', hshape'⟩ := emit_trace a t
    simp [he, he', hshape, hshape', htrace]
  case err => simpa using herr
  all_goals cases a <;> simp [hdir, hlat, hfaults]

theorem SameButForLevels.emitAll {s t : State} (h : SameButForLevels s t) (acts : List Action) :
    SameButForLevels (emitAll acts s) (emitAll acts t) := by
  induction acts generalizing s t with
  | nil => exact h
  | cons a acts ih => exact ih (h.emit a)

/-- Whatever its levels, a result of one kind gives the same number of responses, none of them an error (R84). -/
theorem responsesOf_map_err (k : RspKind) (bs bs' : List Level) :
    (responsesOf k bs).map Response.err = (responsesOf k bs').map Response.err := by
  cases k <;> rfl

/-- A plan is fixed before anything is sampled (R163). -/
theorem SameButForLevels.carryOut {s t : State} (h : SameButForLevels s t) (p : Plan) :
    SameButForLevels (carryOut p s) (carryOut p t) := by
  cases p with
  | reject c => exact ⟨h.trace, h.dir, h.lat, h.faults, by simp [carryOut_reject, h.err]⟩
  | perform its k =>
    have haccept : SameButForLevels (accept s) (accept t) := ⟨h.trace, h.dir, h.lat, h.faults, h.err⟩
    obtain ⟨htrace, hdir, hlat, hfaults, herr⟩ := haccept.emitAll (itemsActions its)
    simp only [carryOut_perform]
    refine ⟨htrace, hdir, hlat, hfaults, ?_⟩
    simp only [complete, answer_responses, List.map_append, herr]
    rw [responsesOf_map_err]

/-- Settles O48: a request's plan and a wire opcode's unit are fixed by the instruction, and no event's effect but the
level it records depends on the levels drawn. -/
theorem sampledLevelsNeverSteerTheBlock : Obligations.SampledLevelsNeverSteerTheBlock := by
  intro i s draws drawn
  have hsame := sameButForLevels_with_draws s draws drawn
  simp only [exec_eq]
  cases encode i with
  | request w =>
    obtain ⟨htrace, hdir, hlat, hfaults, herr⟩ := hsame.carryOut (planOf i)
    exact ⟨_, _, rfl, rfl, htrace, hdir, hlat, hfaults, herr⟩
  | wire op =>
    obtain ⟨htrace, hdir, hlat, hfaults, herr⟩ := hsame.emitAll (itemActions (.opcode op))
    exact ⟨_, _, rfl, rfl, htrace, hdir, hlat, hfaults, herr⟩

/-! ## Requests that send opcode units (R150, R156 to R160) -/

/-- The opcode of SENDOP is `req[21:16]` (R81, R82). -/
theorem opcodeField_eq (w : ReqWord) : opcodeField w = w.extractLsb' 16 6 :=
  extractLsb'_extractLsb' w 16 16 0 6 (by decide)

/-- `m = A[0]` is `req[8]` (R81, R82). -/
theorem modeField_eq (w : ReqWord) : modeField w = modeOfBit (w.getLsbD 8) := by
  simp [modeField, aField]

/-- A request whose units leave what units out leave, from every state, is a sending request (R84, R267). -/
theorem exec_eq_sent {i : Instr} {w : ReqWord} {its : List Item} {evs : List WireEvent}
    (hrequest : encode i = .request w) (hplan : planOf i = .perform its .zero)
    (hitems : ∀ s, runItems its s = unitSent s evs) (s : State) : exec i s = .next (sent s evs) := by
  rw [exec_of_planOf hrequest hplan, carryOut_eq_sent (hitems (accept s))]

/-- A wait after units out adds its event to theirs and nothing else (R116). -/
theorem runItem_wait_unitSent (t : Nat) (s : State) (evs : List WireEvent) :
    runItem (waitItem t) (unitSent s evs) = unitSent s (evs ++ [.wait t]) := by
  simp [runItem, waitItem, itemActions, emit, unitSent]

/-- An opcode unit and the wait after it. -/
theorem runItems_opcode_wait (op : BitVec 6) (t : Nat) (s : State) :
    runItems [.opcode op, waitItem t] s = unitSent s (opcodeOut op ++ [.wait t]) := by
  simp only [runItems_cons, runItems_nil, runItem_opcode, runItem_wait_unitSent]

/-- `repeat n { opOut(op) }`, for at least one unit (R157). -/
theorem runItems_replicate_opcode (op : BitVec 6) {n : Nat} (hn : n ≠ 0) (s : State) :
    runItems (List.replicate n (.opcode op)) s = unitSent s (List.replicate n (opcodeOut op)).flatten := by
  induction n generalizing s with
  | zero => exact absurd rfl hn
  | succ n ih =>
    rw [List.replicate_succ, runItems_cons, runItem_opcode, List.replicate_succ, List.flatten_cons]
    by_cases hlast : n = 0
    · simp [hlast]
    · rw [ih hlast, unitSent_unitSent]

/-- The units of a MID bulk erase: the erase opcode, "begin" and "end", a wait after each (R159, R160). -/
theorem runItems_bulkItems_mid (op : BitVec 6) (s : State) :
    runItems (bulkItems op .mid) s = unitSent s (opcodeOut op ++ [.wait 5000000] ++ opcodeOut 0x18 ++
      [.wait 5000000] ++ opcodeOut 0x17 ++ [.wait 5000000]) := by
  simp only [bulkItems, t5ms, runItems_cons, runItems_nil, runItem_opcode, runItem_wait_unitSent, unitSent_unitSent]

/-- A request with no unit changes no signal and marks nothing (R157, R183). -/
theorem carryOut_perform_nil (s : State) :
    carryOut (.perform [] .zero) s = finished s s.dir s.lat s.faults [] okZero := by
  simp [carryOut_perform, complete, answer, accept, responsesOf, finished, okZero]

/-- Settles O25: SENDOP is the one opcode unit of its operand. -/
theorem sendopClocksAnySixBits : Obligations.SendopClocksAnySixBits := by
  refine ⟨fun w hop => ?_, fun op => ?_⟩
  · rw [← opcodeField_eq]
    simp [decodeRequest, opField, hop]
  · exact exec_eq_sent rfl rfl (runItem_opcode op)

/-- Settles O28: RESETADDR is the opcode unit of 0x16. -/
theorem resetaddrSendsItsOpcode : Obligations.ResetaddrSendsItsOpcode := by
  refine ⟨fun w hop => ?_, exec_eq_sent rfl rfl (runItem_opcode 0x16)⟩
  simp [decodeRequest, opField, hop]

/-- Settles O29: no unit for a count of 0, else one after another, each leaving what the last one left. -/
theorem incaddrSendsItsOpcodeCountTimes : Obligations.IncaddrSendsItsOpcodeCountTimes := by
  refine ⟨fun w hop => ?_, fun s => ?_, fun c s hc => ?_⟩
  · rw [← byteField_eq]
    simp [decodeRequest, opField, hop]
  · have hexec : exec (.incaddr 0) s = .next (carryOut (.perform [] .zero) s) := exec_of_planOf rfl rfl s
    rw [hexec, carryOut_perform_nil]
  · have hcount : c.toNat ≠ 0 := fun hzero => hc (BitVec.eq_of_toNat_eq hzero)
    exact exec_eq_sent rfl rfl (runItems_replicate_opcode 0x06 hcount) s

/-- Settles O30: MID is two opcode units with a wait between them, ENHANCED one with a wait after it. -/
theorem programFollowsItsMode : Obligations.ProgramFollowsItsMode := by
  have hmid (s : State) : runItems [.opcode 0x18, waitItem tPmid, .opcode 0x17] s =
      unitSent s (opcodeOut 0x18 ++ [.wait 2000000] ++ opcodeOut 0x17) := by
    simp only [tPmid, runItems_cons, runItems_nil, runItem_opcode, runItem_wait_unitSent, unitSent_unitSent]
  refine ⟨fun w hop => ?_, fun s => ⟨exec_eq_sent rfl rfl hmid s, ?_⟩⟩
  · rw [← modeField_eq]
    simp [decodeRequest, opField, hop]
  · exact exec_eq_sent rfl rfl (runItems_opcode_wait 0x08 5000000) s

/-- Settles O31: both erases are the units of `bulkItems`, with their own opcode. -/
theorem bulkEraseFollowsItsMode : Obligations.BulkEraseFollowsItsMode := by
  refine ⟨fun w => ⟨fun hop => ?_, fun hop => ?_⟩, fun s => ⟨?_, ?_, ?_, ?_⟩⟩
  · rw [← modeField_eq]
    simp [decodeRequest, opField, hop]
  · rw [← modeField_eq]
    simp [decodeRequest, opField, hop]
  · exact exec_eq_sent rfl rfl (runItems_bulkItems_mid 0x09) s
  · exact exec_eq_sent rfl rfl (runItems_opcode_wait 0x09 5000000) s
  · exact exec_eq_sent rfl rfl (runItems_bulkItems_mid 0x0B) s
  · exact exec_eq_sent rfl rfl (runItems_opcode_wait 0x0B 5000000) s

/-! ## Requests that send an opcode unit and a word (R151 to R155) -/

/-- An opcode unit and a word out, with no wait between (R151 to R153). -/
theorem runItems_opcode_wordOut (op : BitVec 6) (w : BitVec 16) (s : State) :
    runItems (.opcode op :: wordOutItems w) s = unitSent s (opcodeOut op ++ frameOut w) := by
  rw [runItems_cons, runItem_opcode, runItems_wordOut, unitSent_unitSent]

/-- Settles O26: each load is its opcode unit and then a word out. -/
theorem loadsSendOpcodeThenFrame : Obligations.LoadsSendOpcodeThenFrame := by
  refine ⟨fun w => ⟨fun hop => ?_, fun hop => ?_, fun hop => ?_⟩, fun w s => ⟨?_, ?_, ?_⟩⟩
  · simp [decodeRequest, opField, dField, hop]
  · simp [decodeRequest, opField, dField, hop]
  · simp [decodeRequest, opField, dField, hop]
  · exact exec_eq_sent rfl rfl (runItems_opcode_wordOut 0x00 w) s
  · exact exec_eq_sent rfl rfl (runItems_opcode_wordOut 0x02 w) s
  · exact exec_eq_sent rfl rfl (runItems_opcode_wordOut 0x03 w) s

/-- An opcode unit and a word in: DATA is left an input with its latch LOW, and the levels sampled are those shown
before the opcode unit, which takes none (R154, R155). -/
theorem runItems_opcode_wordIn (op : BitVec 6) (s : State) :
    runItems (.opcode op :: wordInItems) s =
      { unitRead 16 (opcodeOut op ++ (unitIn ((upcoming s 16).take 8) ++ unitIn ((upcoming s 16).drop 8))) s with
        lat := sentLatches s.lat } := by
  have hupcoming : upcoming (unitSent s (opcodeOut op)) 16 = upcoming s 16 := rfl
  have hdir : dataInput (dataOutput s.dir) = dataInput s.dir := rfl
  have hlat : readLatches (sentLatches s.lat) = sentLatches s.lat := rfl
  rw [runItems_cons, runItem_opcode, runItems_wordIn, hupcoming]
  simp [unitRead, unitSent, drawnOff, upcoming, hdir, hlat]

/-- A request that reads a frame after an opcode unit answers the inner fourteen of its levels (R134, R154, R155). -/
theorem carryOut_opcode_wordIn (op : BitVec 6) (s : State) :
    carryOut (.perform (.opcode op :: wordInItems) .word) s =
      drawnOff 16 (finished s (dataInput s.dir) (sentLatches s.lat) (clockMark s.dir s.faults)
        (opcodeOut op ++ (unitIn ((upcoming s 16).take 8) ++ unitIn ((upcoming s 16).drop 8)))
        ⟨false, BitVec.ofNat 16 (valueOf (((upcoming s 16).drop 1).take 14))⟩) := by
  have hsamples : (runItems (.opcode op :: wordInItems) (accept s)).samples = upcoming s 16 := by
    rw [runItems_opcode_wordIn]
    rfl
  rw [carryOut, complete, hsamples, responsesOf_word (upcoming_length s 16), runItems_opcode_wordIn, upcoming_accept]
  rfl

/-- Settles O27: each read is its opcode unit and then a word in. -/
theorem readsSendOpcodeThenReadFrame : Obligations.ReadsSendOpcodeThenReadFrame := by
  refine ⟨fun w => ⟨fun hop => ?_, fun hop => ?_⟩, fun s i op hread => ?_⟩
  · simp [decodeRequest, opField, hop]
  · simp [decodeRequest, opField, hop]
  · have hexec : exec i s = .next (carryOut (.perform (.opcode op :: wordInItems) .word) s) := by
      rcases hread with ⟨rfl, rfl⟩ | ⟨rfl, rfl⟩
      · exact exec_of_planOf rfl rfl s
      · exact exec_of_planOf rfl rfl s
    rw [hexec, carryOut_opcode_wordIn]

end Sys2Proof.Machine

/-! The statements of spec/43_session.md: the session sequencer's requests (R181 to R183). -/

namespace Sys2Proof.Machine

open Sys2Proof.Slice0

/-! ## The session requests (R180 to R183) -/

/-- `~l` is another level than `l` (R8). -/
theorem otherLevel_ne (l : Level) : otherLevel l ≠ l := by cases l <;> decide

/-- A request instruction that samples nothing answers `(0, 0x0000)` and leaves DIR and LAT as its units leave them. -/
theorem exec_eq_finished {i : Instr} {w : ReqWord} {its : List Item} {s : State} {d : PerSignal Dir}
    {l : PerSignal Level} {evs : List WireEvent} (hrequest : encode i = .request w)
    (hplan : planOf i = .perform its .zero)
    (hitems : runItems its (accept s) = { accept s with dir := d, lat := l, trace := s.trace ++ evs }) :
    exec i s = .next (finished s d l s.faults evs okZero) := by
  rw [exec_of_planOf hrequest hplan, carryOut, hitems]
  rfl

/-- A stage of ENTER or EXIT: one signal driven, then a wait (R180, R113, R116). -/
theorem runItems_drive_wait (sg : Signal) (l : Level) (t : Nat) (its : List Item) (s : State) :
    runItems (.event (.drive sg l) :: waitItem t :: its) s =
      runItems its { s with
        dir := perSet s.dir sg .output
        lat := perSet s.lat sg l
        trace := s.trace ++ [.drive sg l, .wait t] } := by
  simp [runItem, waitItem, itemActions, emit]

/-- The release that ends EXIT (R114, R182). -/
theorem runItems_relall (s : State) :
    runItems [.event .relall] s = { s with dir := allInput, trace := s.trace ++ [.relall] } := rfl

/-- The release that begins ENTER, and CLOCK and DATA driven low until the first wait (R181). -/
theorem runItems_release_drive_low (t : Nat) (its : List Item) (s : State) :
    runItems (.event .relall :: .event (.drive .clock .low) :: .event (.drive .data .low) :: waitItem t :: its) s =
      runItems its { s with
        dir := { allInput with clock := .output, data := .output }
        lat := sentLatches s.lat
        trace := s.trace ++ [.relall, .drive .clock .low, .drive .data .low, .wait t] } := by
  rw [runItems_cons, runItems_cons, runItems_drive_wait]
  simp [runItem, itemActions, emit, perSet, sentLatches]

/-- Settles O34: after the release every signal is driven once, CLOCK and DATA low, then RESET, then PGM. -/
theorem enterAssertsResetThenPgm : Obligations.EnterAssertsResetThenPgm := by
  refine ⟨fun w hop => ?_, fun s => exec_eq_finished rfl rfl ?_⟩
  · simp [decodeRequest, opField, hop]
  · rw [runItems_release_drive_low, assertReset, runItems_drive_wait, assertPgm, runItems_drive_wait, runItems_nil]
    simp [perSet, sentLatches, tPwr]

/-- Settles O35: PGM, then RESET, is driven to the other level than its assert level; the release keeps the latches. -/
theorem exitDeassertsPgmThenReset : Obligations.ExitDeassertsPgmThenReset := by
  refine ⟨fun w hop => ?_, fun s => ⟨otherLevel Config.pgmAssertLevel, otherLevel Config.resetAssertLevel,
    otherLevel_ne _, otherLevel_ne _, exec_eq_finished rfl rfl ?_⟩⟩
  · simp [decodeRequest, opField, hop]
  · rw [deassertPgm, runItems_drive_wait, deassertReset, runItems_drive_wait, runItems_relall]
    simp [perSet, allInput, tPwr]

/-- Settles O36: HWRESET is a request with no unit. -/
theorem hwresetDoesNothing : Obligations.HwresetDoesNothing := by
  refine ⟨fun w hop => ?_, fun s => ?_⟩
  · simp [decodeRequest, opField, hop]
  · have hexec : exec .hwreset s = .next (carryOut (.perform [] .zero) s) := exec_of_planOf rfl rfl s
    rw [hexec, carryOut_perform_nil]

end Sys2Proof.Machine

/-! The statements of spec/48_dispatcher_mapping.md: the dispatcher's path for an unknown byte (R222) and its reads of
several words (R213). -/

namespace Sys2Proof.Machine

open Sys2Proof.Slice0

/-! ## The dispatcher's transitions (R200, R223, R224) -/

theorem adapterRun_add (k m : Nat) (a : Adapter) : adapterRun (k + m) a = adapterRun m (adapterRun k a) := by
  induction k generalizing a with
  | zero => rw [Nat.zero_add, adapterRun]
  | succ k ih => rw [Nat.succ_add, adapterRun, adapterRun, ih]

/-- The result bytes and one prompt end every command (R223). -/
theorem adapterRun_emitResult (b : State) (link out bytes : List Byte) (n : Nat) :
    adapterRun 2 ⟨b, link, out, .emitResult bytes, n⟩ = ⟨b, link, out ++ bytes ++ [Config.promptByte], .idle, n⟩ := rfl

/-- An unknown byte leads to the error marker at once (R222, log entry 19). -/
theorem adapterRun_of_unknown {c : Byte} (h : commandOfByte c = none) (b : State) (link out : List Byte) (n : Nat) :
    adapterRun 2 ⟨b, c :: link, out, .idle, n⟩ =
      ⟨b, link, out, .emitResult [Config.errMarker.1, Config.errMarker.2], n⟩ := by
  simp [adapterRun, adapterStep, h]

/-- Settles O54: no phase on the path of an unknown byte reaches the block. -/
theorem unknownCommandTouchesNoSignal : Obligations.UnknownCommandTouchesNoSignal := by
  intro b c link out n hunknown
  rw [show 4 = 2 + 2 from rfl, adapterRun_add, adapterRun_of_unknown hunknown, adapterRun_emitResult]
  simp

/-- The block after the dispatcher's requests, one after another. -/
def issueAll (todo : List Instr) (b : State) : State := todo.foldl (fun t i => issueRequest i t) b

@[simp] theorem issueAll_nil (b : State) : issueAll [] b = b := rfl

@[simp] theorem issueAll_cons (i : Instr) (todo : List Instr) (b : State) :
    issueAll (i :: todo) b = issueAll todo (issueRequest i b) := rfl

/-- The bytes a command returns for its requests, in request order (R224). -/
def answerBytes (c : HostCommand) : List Instr → State → List Byte
  | [], _ => []
  | i :: todo, b =>
    resultBytes c i (lastResponse (issueRequest i b)) ++ answerBytes c todo (issueRequest i b)

/-- One request of a command: its result bytes leave or are held, and follow all bytes before them (R224). -/
theorem adapterStep_execute_cons (c : HostCommand) (i : Instr) (todo : List Instr) (b : State)
    (link out held : List Byte) (n : Nat) :
    ∃ out' held', out' ++ held' = out ++ held ++ resultBytes c i (lastResponse (issueRequest i b)) ∧
      adapterStep ⟨b, link, out, .execute c (i :: todo) held, n⟩ =
        ⟨issueRequest i b, link, out', .execute c todo held', n + 1⟩ := by
  cases hearly : Config.resultsEarly n with
  | true =>
    exact ⟨out ++ (held ++ resultBytes c i (lastResponse (issueRequest i b))), [], by simp, by
      simp [adapterStep, hearly]⟩
  | false =>
    exact ⟨out, held ++ resultBytes c i (lastResponse (issueRequest i b)), by simp, by simp [adapterStep, hearly]⟩

/-- A command's requests run on the block in order; whether each result leaves early or is held, the link carries the
same bytes in the end (R223, R224). -/
theorem adapterRun_execute (c : HostCommand) (todo : List Instr) (b : State) (link out held : List Byte) (n : Nat) :
    adapterRun (todo.length + 3) ⟨b, link, out, .execute c todo held, n⟩ =
      ⟨issueAll todo b, link, out ++ held ++ answerBytes c todo b ++ closingBytes c ++ [Config.promptByte], .idle,
        n + todo.length⟩ := by
  induction todo generalizing b out held n with
  | nil => simp [adapterRun, adapterStep, answerBytes]
  | cons i todo ih =>
    obtain ⟨out', held', hbytes, hstep⟩ := adapterStep_execute_cons c i todo b link out held n
    rw [List.length_cons, Nat.succ_add, adapterRun, hstep, ih, hbytes]
    simp [answerBytes, Nat.add_comm 1, Nat.add_assoc]

/-! ## The requests of `F` (R154, R157, R213) -/

/-- An idle block carries out the dispatcher's request, alone at its port (log entry 20). -/
theorem issueRequest_of_decodeRequest {i : Instr} {w : ReqWord} {b : State} (hencode : encode i = .request w)
    (hdecode : decodeRequest w = .ok i) (hidle : b.busy = false) :
    issueRequest i b = carryOut (planOf i) { b with port := [] } := by
  have hstep : step { b with port := [.request w] } = .next (carryOut (planOf i) { b with port := [] }) := by
    rw [step_of_idle_request (s := { b with port := [.request w] }) hidle rfl, planOfWord, hdecode]
  simp only [issueRequest, hencode, hstep]

/-- READPGM of the dispatcher (R154). -/
theorem issueRequest_readpgm {b : State} (hidle : b.busy = false) :
    issueRequest .readpgm b =
      drawnOff 16 (finished { b with port := [] } (dataInput b.dir) (sentLatches b.lat) (clockMark b.dir b.faults)
        (opcodeOut 0x04 ++ (unitIn ((upcoming b 16).take 8) ++ unitIn ((upcoming b 16).drop 8)))
        ⟨false, wordRead (upcoming b 16)⟩) := by
  rw [issueRequest_of_decodeRequest (w := 0x00000024) (by decide) (by decide) hidle]
  exact carryOut_opcode_wordIn 0x04 { b with port := [] }

/-- INCADDR 1 of the dispatcher (R157). -/
theorem issueRequest_incaddr_one {b : State} (hidle : b.busy = false) :
    issueRequest (.incaddr 1) b = sent { b with port := [] } (opcodeOut 0x06) := by
  have hplan : planOf (.incaddr 1) = .perform [.opcode 0x06] .zero := rfl
  have hunit (s : State) : runItems [.opcode 0x06] s = unitSent s (opcodeOut 0x06) := runItem_opcode 0x06 s
  rw [issueRequest_of_decodeRequest (w := 0x00010027) (by decide) (by decide) hidle, hplan, carryOut_eq_sent (hunit _)]

theorem lastResponse_issueRequest_readpgm {b : State} (hidle : b.busy = false) :
    lastResponse (issueRequest .readpgm b) = ⟨false, wordRead (upcoming b 16)⟩ := by
  rw [issueRequest_readpgm hidle]
  simp [lastResponse, drawnOff, finished]

/-- The block after one word of `F`: READPGM, then INCADDR 1 (R213). -/
def afterFetch (b : State) : State := issueRequest (.incaddr 1) (issueRequest .readpgm b)

/-- One word of `F` leaves the block idle, with the events of both requests, both responses, and sixteen levels taken. -/
theorem afterFetch_spec {b : State} (hidle : b.busy = false) :
    (afterFetch b).busy = false ∧
      (afterFetch b).trace = b.trace ++ fetchEvents (upcoming b 16) ∧
      (afterFetch b).responses = b.responses ++ [⟨false, wordRead (upcoming b 16)⟩, okZero] ∧
      (afterFetch b).draws = b.draws.drop 16 ∧
      (afterFetch b).drawn = b.drawn + (16 - b.draws.length) := by
  rw [afterFetch, issueRequest_readpgm hidle, issueRequest_incaddr_one rfl]
  simp [sent, finished, drawnOff, fetchEvents]

/-- The requests of `F` for `k` words (R213). -/
def fetchRequests (k : Nat) : List Instr := (List.replicate k [Instr.readpgm, .incaddr 1]).flatten

theorem fetchRequests_succ (k : Nat) : fetchRequests (k + 1) = .readpgm :: .incaddr 1 :: fetchRequests k := rfl

theorem fetchRequests_length (k : Nat) : (fetchRequests k).length = 2 * k := by
  simp [fetchRequests, Nat.mul_comm]

/-- The count of `F` is the low byte of its argument (R200, R213). -/
theorem requestsOf_cF (lo hi : Byte) : requestsOf .cF [lo, hi] = fetchRequests lo.toNat := by
  have hcount : (argWord [lo, hi]).extractLsb' 0 8 = lo := BitVec.extractLsb'_append_eq_right
  rw [requestsOf, hcount, expandPseudo, fetchRequests]

/-- The next `k` groups of sixteen levels the environment shows, one group for each word of `F`. -/
def levelGroups : Nat → List Level → Nat → List (List Level)
  | 0, _, _ => []
  | k + 1, draws, drawn =>
    nextLevels 16 draws drawn :: levelGroups k (draws.drop 16) (drawn + (16 - draws.length))

theorem levelGroups_length (k : Nat) (draws : List Level) (drawn : Nat) :
    (levelGroups k draws drawn).length = k := by
  induction k generalizing draws drawn with
  | zero => rfl
  | succ k ih => rw [levelGroups, List.length_cons, ih]

theorem length_of_mem_levelGroups {k : Nat} {draws : List Level} {drawn : Nat} {ls : List Level}
    (h : ls ∈ levelGroups k draws drawn) : ls.length = 16 := by
  induction k generalizing draws drawn with
  | zero => simp [levelGroups] at h
  | succ k ih =>
    rcases List.mem_cons.mp h with rfl | h
    · exact nextLevels_length 16 draws drawn
    · exact ih h

theorem levelGroups_flatten (k : Nat) (draws : List Level) (drawn : Nat) :
    (levelGroups k draws drawn).flatten = nextLevels (16 * k) draws drawn := by
  induction k generalizing draws drawn with
  | zero => rfl
  | succ k ih => rw [levelGroups, List.flatten_cons, ih, Nat.mul_succ, Nat.add_comm (16 * k), nextLevels_add]

/-- The two bytes of a program word, low first (R62, R213). -/
def wordBytes (ls : List Level) : List Byte := [(wordRead ls).extractLsb' 0 8, (wordRead ls).extractLsb' 8 8]

/-- One word more of `F` answers its two bytes; INCADDR answers none (R213). -/
theorem answerBytes_fetchRequests_succ {b : State} (hidle : b.busy = false) (k : Nat) :
    answerBytes .cF (fetchRequests (k + 1)) b =
      wordBytes (upcoming b 16) ++ answerBytes .cF (fetchRequests k) (afterFetch b) := by
  rw [fetchRequests_succ, answerBytes, answerBytes, lastResponse_issueRequest_readpgm hidle]
  rfl

/-- The requests of `F` for `k` words, on the block: each word's events, its two responses and its two bytes. -/
theorem fetchRequests_spec {b : State} (hidle : b.busy = false) (k : Nat) :
    (issueAll (fetchRequests k) b).trace = b.trace ++ (levelGroups k b.draws b.drawn).flatMap fetchEvents ∧
      (issueAll (fetchRequests k) b).responses =
        b.responses ++ (levelGroups k b.draws b.drawn).flatMap (fun ls => [⟨false, wordRead ls⟩, okZero]) ∧
      answerBytes .cF (fetchRequests k) b = (levelGroups k b.draws b.drawn).flatMap wordBytes := by
  induction k generalizing b with
  | zero => simp [fetchRequests, levelGroups, answerBytes]
  | succ k ih =>
    obtain ⟨hidle', htrace, hresponses, hdraws, hdrawn⟩ := afterFetch_spec hidle
    obtain ⟨ihTrace, ihResponses, ihBytes⟩ := ih hidle'
    have hissue : issueAll (fetchRequests (k + 1)) b = issueAll (fetchRequests k) (afterFetch b) := rfl
    have hgroups : levelGroups (k + 1) b.draws b.drawn =
        upcoming b 16 :: levelGroups k (afterFetch b).draws (afterFetch b).drawn := by
      rw [hdraws, hdrawn, levelGroups, upcoming]
    rw [hissue, hgroups, answerBytes_fetchRequests_succ hidle, ihTrace, ihResponses, ihBytes, htrace, hresponses]
    simp

/-- The five transitions before the first request of `F`: its byte and its two argument bytes are read (R200, R213). -/
theorem adapterRun_readF (b : State) (lo hi : Byte) (link out : List Byte) (n : Nat) :
    adapterRun 5 ⟨b, 0x46 :: lo :: hi :: link, out, .idle, n⟩ =
      ⟨b, link, out, .execute .cF (requestsOf .cF [lo, hi]) [], n⟩ := rfl

/-- The whole run of `F`: its requests on the block, their bytes and one prompt on the link (R213, R223). -/
theorem adapterRun_fetch (b : State) (lo hi : Byte) (link out : List Byte) (n : Nat) :
    adapterRun (2 * lo.toNat + 8) ⟨b, 0x46 :: lo :: hi :: link, out, .idle, n⟩ =
      ⟨issueAll (fetchRequests lo.toNat) b, link,
        out ++ answerBytes .cF (fetchRequests lo.toNat) b ++ [Config.promptByte], .idle, n + 2 * lo.toNat⟩ := by
  rw [Nat.add_comm, show 8 + 2 * lo.toNat = 5 + (2 * lo.toNat + 3) by omega, adapterRun_add, adapterRun_readF,
    requestsOf_cF, ← fetchRequests_length, adapterRun_execute]
  simp [closingBytes]

/-- Settles O53: after the arguments are read, every word of `F` is one READPGM and one INCADDR 1, and the link ends
with the same bytes whether or not results leave early. -/
theorem fetchReadsCountWords : Obligations.FetchReadsCountWords := by
  intro b lo hi link out n hidle
  obtain ⟨htrace, hresponses, hbytes⟩ := fetchRequests_spec hidle lo.toNat
  refine ⟨requestsOf_cF lo hi, _, levelGroups lo.toNat b.draws b.drawn, adapterRun_fetch b lo hi link out n, rfl, rfl,
    levelGroups_length _ _ _, fun _ hls => length_of_mem_levelGroups hls, levelGroups_flatten _ _ _, htrace,
    hresponses, ?_⟩
  rw [hbytes]
  rfl

end Sys2Proof.Machine

/-! The statements of spec/60_exceptions.md: a rejected request only answers its cause (R87, R231), and a model fault is
a mark that stays until reset and steers nothing (R234). -/

namespace Sys2Proof

open Sys2Proof.Slice0

/-- Only the OP values of R86 select an operation (R87). -/
theorem opField_mem_assignedOps_of_decodeRequest {w : ReqWord} {i : Instr} (hdecode : decodeRequest w = .ok i) :
    opField w ∈ assignedOps := by
  unfold decodeRequest at hdecode
  split at hdecode
  case h_23 => cases hdecode
  all_goals
    rename_i hcode
    simp [assignedOps, ← BitVec.toNat_inj, hcode]

end Sys2Proof

namespace Sys2Proof.Machine

open Sys2Proof.Slice0

/-! ## Rejection (R87, R231) -/

/-- A word with a reserved OP asks for nothing but its rejection (R87). -/
theorem planOfWord_of_reserved {w : ReqWord} (hreserved : opField w ∉ assignedOps) :
    planOfWord w = .reject .illegalOp := by
  unfold planOfWord
  cases hdecode : decodeRequest w with
  | ok i => exact absurd (opField_mem_assignedOps_of_decodeRequest hdecode) hreserved
  | error e => rfl

/-- An idle block runs the instruction the word presented to it decodes to. -/
theorem step_of_idle_decoded {s : State} {w : ReqWord} {i : Instr} {rest : List PortInput} (hidle : s.busy = false)
    (hport : s.port = .request w :: rest) (hdecode : decodeRequest w = .ok i) :
    step s = exec i { s with port := rest } := by
  simp [step, hidle, stepIdle, hport, runRequest, hdecode]

/-- Settles O8: a reserved OP's plan is its rejection, and SENDBYTE with an illegal bit count is rejected by its
meaning. -/
theorem rejectedRequestsOnlyAnswerTheCause : Obligations.RejectedRequestsOnlyAnswerTheCause := by
  intro s w rest hidle hport
  refine ⟨fun hreserved => ?_, fun hop hcount => ?_⟩
  · rw [step_of_idle_request hidle hport, planOfWord_of_reserved hreserved, carryOut_reject_eq_finished]
    rfl
  · obtain ⟨hdecode, -, hrejected⟩ := sendbyteClocksTheLowBitsOrIsRejected
    rw [step_of_idle_decoded hidle hport (hdecode w hop), hrejected _ _ _ hcount]

/-! ## A model fault stays until reset (R234, R260) -/

/-- A request carried out takes no fault away: acceptance and the answer touch none (R234). -/
theorem carryOut_keeps_faults (p : Plan) (s : State) (m : ModelFault) (h : hasFault s.faults m = true) :
    hasFault (carryOut p s).faults m = true := by
  cases p with
  | reject c => exact h
  | perform its k =>
    rw [carryOut_perform]
    exact emitAll_keeps_faults (itemsActions its) (accept s) m h

/-- Without a reset at the port, a step takes no fault away (R234). -/
theorem step_keeps_faults {s t : State} (hport : ∀ k rest, s.port ≠ .reset k :: rest) (hstep : step s = .next t)
    (m : ModelFault) (h : hasFault s.faults m = true) : hasFault t.faults m = true := by
  rcases step_cases hstep with ⟨-, -, rfl⟩ | ⟨rest, -, -, rfl⟩ | ⟨w, rest, -, -, rfl⟩ | ⟨w, rest, c, -, -, -, rfl⟩ |
    ⟨w, rest, its, k, -, -, -, rfl⟩ | ⟨k, rest, -, hreset, -⟩ | ⟨k, rest, -, hreset, -⟩ | ⟨-, -, rfl⟩ |
    ⟨it, rest, -, -, rfl⟩
  · exact h
  · exact h
  · exact carryOut_keeps_faults (planOfWord w) { s with port := rest } m h
  · exact h
  · exact h
  · exact absurd hreset (hport k rest)
  · exact absurd hreset (hport k rest)
  · exact h
  · exact emitAll_keeps_faults (itemActions it) { s with items := rest } m h

/-- An idle block with nothing presented to it waits (R247). -/
theorem step_of_idle_nil {s : State} (hidle : s.busy = false) (hport : s.port = []) : step s = .next s := by
  simp [step, hidle, stepIdle, hport]

/-- An idle block lets a gap pass (R247). -/
theorem step_of_idle_gap {s : State} {rest : List PortInput} (hidle : s.busy = false) (hport : s.port = .gap :: rest) :
    step s = .next { s with port := rest } := by
  simp [step, hidle, stepIdle, hport]

/-- An idle block accepts a request to be followed unit by unit (R80). -/
theorem step_of_idle_requestStepwise {s : State} {w : ReqWord} {rest : List PortInput} (hidle : s.busy = false)
    (hport : s.port = .requestStepwise w :: rest) : step s = .next (startRequest w { s with port := rest }) := by
  simp [step, hidle, stepIdle, hport]

/-- An idle block takes the reset at its port at once (R260). -/
theorem step_of_idle_reset {s : State} {k : Nat} {rest : List PortInput} (hidle : s.busy = false)
    (hport : s.port = .reset k :: rest) : step s = .next (resetBlock { s with port := rest }) := by
  simp [step, hidle, stepIdle, hport]

/-- A reset at the port of a busy block falls after `k` more events of its operation (R262). -/
theorem step_of_busy_reset {s : State} {k : Nat} {rest : List PortInput} (hbusy : s.busy = true)
    (hport : s.port = .reset k :: rest) : step s = .next (abortAfter k { s with port := rest }) := by
  simp [step, hbusy, stepBusy, hport]

/-- A step that takes a reset leaves no fault, whether or not an operation was in progress (R260). -/
theorem faults_eq_empty_of_step_reset {s t : State} {k : Nat} {rest : List PortInput}
    (hport : s.port = .reset k :: rest) (hstep : step s = .next t) : t.faults = FaultSet.empty := by
  cases hbusy : s.busy with
  | false =>
    rw [step_of_idle_reset hbusy hport] at hstep
    cases hstep
    rfl
  | true =>
    rw [step_of_busy_reset hbusy hport] at hstep
    cases hstep
    rfl

/-! ## A model fault steers nothing (R234) -/

/-- `u` differs from `t` in nothing but its model faults and those in the observations of ended runs. -/
def SameButFaults (t u : State) : Prop :=
  u = { t with faults := u.faults, ended := u.ended } ∧ u.ended.map faultsBlanked = t.ended.map faultsBlanked

theorem sameButFaults_with_faults (t : State) (g : FaultSet) : SameButFaults t { t with faults := g } :=
  ⟨rfl, rfl⟩

/-- A reset carries the faults over into the ended run's observation only (R13, R260). -/
theorem sameButFaults_resetBlock (s : State) (f : FaultSet) :
    SameButFaults (resetBlock s) (resetBlock { s with faults := f }) :=
  ⟨rfl, by simp [observe, emit, faultsBlanked]⟩

theorem sameButFaults_abortAfter (k : Nat) (s : State) (f : FaultSet) :
    SameButFaults (abortAfter k s) (abortAfter k { s with faults := f }) := by
  obtain ⟨g, hg⟩ := emitAll_with_faults ((itemsActions s.items).take k) s f
  simp only [abortAfter, hg]
  exact sameButFaults_resetBlock _ g

theorem startRequest_with_faults (w : ReqWord) (s : State) (f : FaultSet) :
    ∃ g, startRequest w { s with faults := f } = { startRequest w s with faults := g } := by
  simp only [startRequest_eq]
  cases planOfWord w with
  | perform its k => exact ⟨f, rfl⟩
  | reject c => exact carryOut_with_faults (.reject c) s f

/-- Whatever model faults `s` had instead, its step would lead to the same state but for model faults. -/
def FaultsSteerNothing (s : State) : Prop :=
  ∀ f : FaultSet, ∃ t u, step s = .next t ∧ step { s with faults := f } = .next u ∧ SameButFaults t u

/-- A step within a run gives the two states other faults and nothing else. -/
theorem faultsSteerNothing_of_update {s t : State} (hs : step s = .next t)
    (h : ∀ f, ∃ g, step { s with faults := f } = .next { t with faults := g }) : FaultsSteerNothing s := by
  intro f
  obtain ⟨g, hg⟩ := h f
  exact ⟨t, _, hs, hg, sameButFaults_with_faults t g⟩

/-- An operation in progress is cut short by reset, goes on by a unit or is answered, whatever the faults. -/
theorem faultsSteerNothing_of_busy {s : State} (hbusy : s.busy = true) : FaultsSteerNothing s := by
  by_cases hreset : ∃ k rest, s.port = .reset k :: rest
  · obtain ⟨k, rest, hport⟩ := hreset
    exact fun f => ⟨_, _, step_of_busy_reset hbusy hport, step_of_busy_reset hbusy hport,
      sameButFaults_abortAfter k { s with port := rest } f⟩
  · have hport : ∀ k rest, s.port ≠ .reset k :: rest := fun k rest h => hreset ⟨k, rest, h⟩
    cases hitems : s.items with
    | nil =>
      exact faultsSteerNothing_of_update (step_of_busy_nil hitems hbusy hport) fun f =>
        ⟨f, step_of_busy_nil hitems hbusy hport⟩
    | cons it rest =>
      refine faultsSteerNothing_of_update (step_of_busy_cons hitems hbusy hport) fun f => ?_
      obtain ⟨g, hg⟩ := emitAll_with_faults (itemActions it) { s with items := rest } f
      exact ⟨g, (step_of_busy_cons (s := { s with faults := f }) hitems hbusy hport).trans (congrArg _ hg)⟩

/-- What an idle block takes off its port does not depend on the faults. -/
theorem faultsSteerNothing_of_idle {s : State} (hidle : s.busy = false) : FaultsSteerNothing s := by
  cases hport : s.port with
  | nil =>
    exact faultsSteerNothing_of_update (step_of_idle_nil hidle hport) fun f => ⟨f, step_of_idle_nil hidle hport⟩
  | cons p rest =>
    cases p with
    | gap =>
      exact faultsSteerNothing_of_update (step_of_idle_gap hidle hport) fun f => ⟨f, step_of_idle_gap hidle hport⟩
    | request w =>
      refine faultsSteerNothing_of_update (step_of_idle_request hidle hport) fun f => ?_
      obtain ⟨g, hg⟩ := carryOut_with_faults (planOfWord w) { s with port := rest } f
      exact ⟨g, (step_of_idle_request (s := { s with faults := f }) hidle hport).trans (congrArg _ hg)⟩
    | requestStepwise w =>
      refine faultsSteerNothing_of_update (step_of_idle_requestStepwise hidle hport) fun f => ?_
      obtain ⟨g, hg⟩ := startRequest_with_faults w { s with port := rest } f
      exact ⟨g, (step_of_idle_requestStepwise (s := { s with faults := f }) hidle hport).trans (congrArg _ hg)⟩
    | reset k =>
      exact fun f => ⟨_, _, step_of_idle_reset hidle hport, step_of_idle_reset hidle hport,
        sameButFaults_resetBlock { s with port := rest } f⟩

theorem faultsSteerNothing (s : State) : FaultsSteerNothing s := by
  cases hbusy : s.busy with
  | false => exact faultsSteerNothing_of_idle hbusy
  | true => exact faultsSteerNothing_of_busy hbusy

/-- Settles O39: without a reset marks are only added, a reset empties them, and no step reads them. -/
theorem faultsAreMarksAndStayUntilReset : Obligations.FaultsAreMarksAndStayUntilReset := by
  refine ⟨fun s t m hport hstep => step_keeps_faults hport hstep m,
    fun s t k rest hport hstep => faults_eq_empty_of_step_reset hport hstep, fun s t f hstep => ?_⟩
  obtain ⟨t', u, hs, hu, hsame, hended⟩ := faultsSteerNothing s f
  obtain rfl : t' = t := by simpa [hs] using hstep
  exact ⟨u, hu, hsame, hended⟩

end Sys2Proof.Machine

/-! The statements of spec/70_reset_and_hazards.md: reset (R260 to R262), the CLOCK mark (R264, R266), the order of DATA
and CLOCK (R274, R275), and the table of events, pulses and waits with its bound (R277, R278). -/

namespace Sys2Proof.Machine

open Sys2Proof.Slice0

/-! ## Reset (R260, R261, R262) -/

/-- Every signal released, as the register's value (R31). -/
theorem dirRegister_allInput : dirRegister allInput = 0b1111 := by decide

/-- Settles O37: power-up is written out, and an idle block takes the reset at its port at once. -/
theorem resetReleasesAndStartsANewRun : Obligations.ResetReleasesAndStartsANewRun := by
  refine ⟨⟨dirRegister_allInput, rfl, rfl, rfl, rfl⟩, fun s k rest hidle hport => ?_⟩
  exact ⟨_, step_of_idle_reset hidle hport, dirRegister_allInput, rfl, rfl, rfl, rfl, rfl, rfl, rfl⟩

/-- The first `k` actions of a sequence append the first `k` of the events the whole sequence appends (R70). -/
theorem emitAll_take_trace (acts : List Action) (s : State) :
    ∃ evs, (emitAll acts s).trace = s.trace ++ evs ∧
      ∀ k, (emitAll (acts.take k) s).trace = s.trace ++ evs.take k := by
  induction acts generalizing s with
  | nil => exact ⟨[], by simp, by simp⟩
  | cons a acts ih =>
    obtain ⟨e, he, -⟩ := emit_trace a s
    obtain ⟨evs, hall, htake⟩ := ih (emit a s)
    refine ⟨e :: evs, by simp [hall, he], fun k => ?_⟩
    cases k with
    | zero => simp
    | succ k => simp [htake, he]

/-- Settles O38: the events before the cut are the first `k` of those still to come, and the reset adds the release. -/
theorem resetAbortsTheOperationInProgress : Obligations.ResetAbortsTheOperationInProgress := by
  intro s k rest hbusy hport
  obtain ⟨evs, hall, htake⟩ := emitAll_take_trace (itemsActions s.items) s
  obtain ⟨-, -, -, hresponses, hended, -, -⟩ := emitAll_frame ((itemsActions s.items).take k) s
  rw [step_of_busy_reset hbusy hport, abortAfter, emitAll_with_port]
  refine ⟨_, evs, _, rfl, ?_, congrArg (· ++ _) hended, congrArg (· ++ _) (htake k), hresponses, rfl, rfl, rfl, rfl,
    rfl, rfl, rfl⟩
  rw [runItems_eq_emitAll, hall]

/-! ## The units of an instruction and what they count (R65, R277) -/

/-- The units of a plan; a rejection has none (R231). -/
def unitsOf : Plan → List Item
  | .perform its _ => its
  | .reject _ => []

theorem actionsOf_eq_itemsActions (i : Instr) : actionsOf i = itemsActions (unitsOf (planOf i)) := by
  unfold actionsOf
  cases planOf i <;> rfl

/-- The wire events of a unit (R130, R133, R150). -/
def unitEvents : Item → Nat
  | .opcode _ => 27
  | .byteOut _ n => 4 * n + 2
  | .byteIn => 33
  | .event _ => 1

/-- The CLOCK pulses of a unit (R130, R133, R150). -/
def unitPulses : Item → Nat
  | .opcode _ => 6
  | .byteOut _ n => n
  | .byteIn => 8
  | .event _ => 0

theorem length_bitsOutActions (n : Nat) (x : BitVec 8) : (bitsOutActions n x).length = 4 * n := by
  induction n generalizing x with
  | zero => rfl
  | succ n ih =>
    simp only [bitsOutActions, bitOutActions, List.length_append, List.length_cons, List.length_nil, ih]
    omega

theorem length_itemActions (it : Item) : (itemActions it).length = unitEvents it := by
  cases it with
  | opcode op => rfl
  | byteOut x n => simp [itemActions, byteOutActions, unitEvents, length_bitsOutActions]
  | byteIn => rfl
  | event a => rfl

theorem length_itemsActions (its : List Item) : (itemsActions its).length = (its.map unitEvents).sum := by
  induction its with
  | nil => rfl
  | cons it its ih => simp [length_itemActions, ih]

/-- The units of SENDBYTE: one with a legal bit count, none with any other (R130, R231). -/
theorem unitsOf_planOf_sendbyte (v : BitVec 8) (n : BitVec 4) :
    unitsOf (planOf (.sendbyte v n)) = if 4 ≤ n.toNat ∧ n.toNat ≤ 8 then [.byteOut v n.toNat] else [] := by
  by_cases h : 4 ≤ n.toNat ∧ n.toNat ≤ 8 <;> simp [planOf, planSendbyte, legalBitCount, unitsOf, h]

/-- The units of an instruction add up to the first two columns of R277's table. -/
theorem counts_planOf (i : Instr) :
    ((unitsOf (planOf i)).map unitEvents).sum = eventCount i ∧
      ((unitsOf (planOf i)).map unitPulses).sum = pulseCount i := by
  cases i with
  | sendbyte v n =>
    rw [unitsOf_planOf_sendbyte, eventCount, pulseCount]
    split <;> simp [unitEvents, unitPulses]
  | incaddr c => simp [planOf, planIncaddr, unitsOf, unitEvents, unitPulses, eventCount, pulseCount, Nat.mul_comm]
  | program m => cases m <;> exact ⟨rfl, rfl⟩
  | bulkpgm m => cases m <;> exact ⟨rfl, rfl⟩
  | bulkdata m => cases m <;> exact ⟨rfl, rfl⟩
  | _ => exact ⟨rfl, rfl⟩

theorem length_actionsOf (i : Instr) : (actionsOf i).length = eventCount i := by
  rw [actionsOf_eq_itemsActions, length_itemsActions, (counts_planOf i).1]

/-- INCADDR 255 has the most events of all instructions (R278). -/
theorem eventCount_le (i : Instr) : eventCount i ≤ 6885 := by
  cases i with
  | sendbyte v n =>
    rw [eventCount]
    split <;> omega
  | incaddr c =>
    rw [eventCount]
    have := c.isLt
    omega
  | program m => cases m <;> decide
  | bulkpgm m => cases m <;> decide
  | bulkdata m => cases m <;> decide
  | _ => simp [eventCount]

/-- Settles O50: a word is rejected with no event, or runs an instruction of the table. -/
theorem noRequestExceeds6885Events : Obligations.NoRequestExceeds6885Events := by
  intro s w rest hidle hport
  cases hdecode : decodeRequest w with
  | ok i =>
    obtain ⟨t, evs, hexec, htrace, hshape⟩ := exec_trace i { s with port := rest }
    refine ⟨t, evs, (step_of_idle_decoded hidle hport hdecode).trans hexec, htrace, ?_⟩
    rw [← List.length_map shapeOf, hshape, length_actionsOf]
    exact eventCount_le i
  | error e =>
    have hplan : planOfWord w = .reject .illegalOp := by simp [planOfWord, hdecode]
    refine ⟨_, [], step_of_idle_request hidle hport, ?_, by simp⟩
    simp [hplan, carryOut_reject]

/-! ## Events that pulse CLOCK (R65, R274, R275) -/

/-- From CLOCK LOW the events make `n` whole CLOCK pulses and move DATA in the order of R274 and R275, and CLOCK is LOW
after them. -/
structure ClockedEvents (n : Nat) (evs : List WireEvent) : Prop where
  pulses : clockPulses evs = n
  released : evs.foldl holdAfter none = none
  ordered : dataOrdered .low evs = true
  low : evs.foldl clockAfter .low = .low

theorem dataOrdered_append (c : Level) (xs ys : List WireEvent) :
    dataOrdered c (xs ++ ys) = (dataOrdered c xs && dataOrdered (xs.foldl clockAfter c) ys) := by
  induction xs generalizing c with
  | nil => rfl
  | cons e xs ih => simp [dataOrdered, ih, Bool.and_assoc]

theorem ClockedEvents.nil : ClockedEvents 0 [] := ⟨rfl, rfl, rfl, rfl⟩

theorem ClockedEvents.append {m n : Nat} {xs ys : List WireEvent} (hx : ClockedEvents m xs) (hy : ClockedEvents n ys) :
    ClockedEvents (m + n) (xs ++ ys) where
  pulses := by rw [clockPulses_append hx.released, hx.pulses, hy.pulses]
  released := by rw [List.foldl_append, hx.released, hy.released]
  ordered := by rw [dataOrdered_append, hx.ordered, hx.low, hy.ordered, Bool.and_self]
  low := by rw [List.foldl_append, hx.low, hy.low]

theorem clockedEvents_dirData (d : Dir) : ClockedEvents 0 [.dir .data d] := ⟨rfl, rfl, rfl, rfl⟩

theorem clockedEvents_wait (t : Nat) : ClockedEvents 0 [.wait t] := ⟨rfl, rfl, rfl, rfl⟩

/-- DATA is set before the rising edge (R130, R274). -/
theorem clockedEvents_sendPulses (bits : List Bool) : ClockedEvents bits.length (sendPulses bits) := by
  induction bits with
  | nil => exact .nil
  | cons b bits ih =>
    have hbit : ClockedEvents 1
        [.lvl .data (if b then .high else .low), .lvl .clock .high, .wait 100, .lvl .clock .low] := by
      cases b <;> exact ⟨rfl, rfl, rfl, rfl⟩
    rw [sendPulses_cons, List.length_cons, Nat.add_comm]
    exact hbit.append ih

theorem clockedEvents_unitOut (bits : List Bool) : ClockedEvents bits.length (unitOut bits) := by
  have hlast : ClockedEvents 0 [.lvl .data .low] := ⟨rfl, rfl, rfl, rfl⟩
  simpa [unitOut] using (clockedEvents_dirData .output).append ((clockedEvents_sendPulses bits).append hlast)

theorem clockedEvents_opcodeOut (op : BitVec 6) : ClockedEvents 6 (opcodeOut op) := by
  exact (clockedEvents_dirData .output).append (clockedEvents_unitOut ((List.range 6).map op.getLsbD))

/-- DATA is sampled before the falling edge (R133, R275). -/
theorem clockedEvents_unitIn (ls : List Level) : ClockedEvents ls.length (unitIn ls) := by
  have hpulses : ClockedEvents ls.length (samplingEvents ls) := by
    induction ls with
    | nil => exact .nil
    | cons b ls ih =>
      have hbit : ClockedEvents 1 [.lvl .clock .high, .wait tClkh, .sample .data b, .lvl .clock .low] :=
        ⟨rfl, rfl, rfl, rfl⟩
      rw [samplingEvents_cons, List.length_cons, Nat.add_comm]
      exact hbit.append ih
  simpa [unitIn_eq] using (clockedEvents_dirData .input).append hpulses

/-! ## What units that pulse CLOCK leave of it (R264, R266, R267) -/

/-- CLOCK's mark depends on CLOCK's direction alone (R112). -/
theorem clockMark_congr {d d' : PerSignal Dir} (h : d'.clock = d.clock) (f : FaultSet) :
    clockMark d' f = clockMark d f := by
  simp only [clockMark, h]

/-- From `s` to `t` the block emits `n` CLOCK pulses in order; if there is any, CLOCK's latch is LOW after it and its
mark is set, and neither changes otherwise. -/
structure ClockRun (n : Nat) (s t : State) : Prop where
  wire : ∃ evs, t.trace = s.trace ++ evs ∧ ClockedEvents n evs
  dir : t.dir.clock = s.dir.clock
  lat : t.lat.clock = if n = 0 then s.lat.clock else .low
  faults : t.faults = if n = 0 then s.faults else clockMark s.dir s.faults

theorem ClockRun.refl (s : State) : ClockRun 0 s s := ⟨⟨[], by simp, .nil⟩, rfl, rfl, rfl⟩

theorem ClockRun.trans {m n : Nat} {s t u : State} (hst : ClockRun m s t) (htu : ClockRun n t u) :
    ClockRun (m + n) s u := by
  obtain ⟨xs, hxs, hx⟩ := hst.wire
  obtain ⟨ys, hys, hy⟩ := htu.wire
  refine ⟨⟨xs ++ ys, by rw [hys, hxs, List.append_assoc], hx.append hy⟩, htu.dir.trans hst.dir, ?_, ?_⟩
  · rw [htu.lat, hst.lat]
    by_cases hm : m = 0 <;> by_cases hn : n = 0 <;> simp [hm, hn]
  · rw [htu.faults, clockMark_congr hst.dir, hst.faults]
    by_cases hm : m = 0 <;> by_cases hn : n = 0 <;> simp [hm, hn]

/-- What units out leave, with the pulses of their events. -/
theorem clockRun_unitSent {n : Nat} (hn : n ≠ 0) {evs : List WireEvent} (h : ClockedEvents n evs) (s : State) :
    ClockRun n s (unitSent s evs) :=
  ⟨⟨evs, rfl, h⟩, rfl, (if_neg hn).symm, (if_neg hn).symm⟩

/-- The units of the operations that pulse CLOCK: an opcode, a byte, or a WAIT (R130, R133, R150, R158). -/
def codecUnit : Item → Bool
  | .opcode _ => true
  | .byteOut _ n => n != 0
  | .byteIn => true
  | .event (.wait _) => true
  | .event _ => false

theorem clockRun_runItem {it : Item} (hunit : codecUnit it = true) (s : State) :
    ClockRun (unitPulses it) s (runItem it s) := by
  cases it with
  | opcode op =>
    rw [runItem_opcode]
    exact clockRun_unitSent (by decide) (clockedEvents_opcodeOut op) s
  | byteOut x n =>
    have hn : n ≠ 0 := by simpa [codecUnit] using hunit
    have hevents := clockedEvents_unitOut (byteBits x n)
    rw [byteBits_length] at hevents
    rw [runItem_byteOut x hn]
    exact clockRun_unitSent hn hevents s
  | byteIn =>
    have hevents := clockedEvents_unitIn (upcoming s 8)
    rw [upcoming_length] at hevents
    rw [runItem_byteIn]
    exact ⟨⟨_, rfl, hevents⟩, rfl, rfl, rfl⟩
  | event a =>
    cases a with
    | wait t => exact ⟨⟨[.wait t], rfl, clockedEvents_wait t⟩, rfl, rfl, rfl⟩
    | _ => cases hunit

theorem clockRun_runItems {its : List Item} (hunits : ∀ it ∈ its, codecUnit it = true) (s : State) :
    ClockRun (its.map unitPulses).sum s (runItems its s) := by
  induction its generalizing s with
  | nil => exact .refl s
  | cons it its ih =>
    obtain ⟨hit, hits⟩ := List.forall_mem_cons.mp hunits
    rw [List.map_cons, List.sum_cons, runItems_cons]
    exact (clockRun_runItem hit s).trans (ih hits _)

/-! ## The instructions that pulse CLOCK -/

theorem codecUnit_of_mem_planOf {i : Instr} (hpulses : pulses i = true) :
    ∀ it ∈ unitsOf (planOf i), codecUnit it = true := by
  rw [← List.all_eq_true]
  cases i with
  | setdir | setlvl | readlvl | releaseall | enter | exit | hwreset => cases hpulses
  | sendbyte v n =>
    rw [unitsOf_planOf_sendbyte]
    split
    · have hn : n.toNat ≠ 0 := by omega
      simpa [codecUnit] using hn
    · rfl
  | incaddr c => simp [planOf, planIncaddr, unitsOf, codecUnit]
  | program m => cases m <;> rfl
  | bulkpgm m => cases m <;> rfl
  | bulkdata m => cases m <;> rfl
  | _ => rfl

/-- Acceptance and the answer leave the trace, DIR, LAT and the model faults to the units of the plan. -/
theorem clockRun_carryOut {p : Plan} {n : Nat} {s : State}
    (h : ClockRun n (accept s) (runItems (unitsOf p) (accept s))) : ClockRun n s (carryOut p s) := by
  cases p <;> exact ⟨h.wire, h.dir, h.lat, h.faults⟩

/-- An instruction that pulses CLOCK makes the pulses of R277's table, in order. -/
theorem exec_clockRun {i : Instr} (hpulses : pulses i = true) (s : State) :
    ∃ t, exec i s = .next t ∧ ClockRun (pulseCount i) s t := by
  have hrun (s' : State) : ClockRun (pulseCount i) s' (runItems (unitsOf (planOf i)) s') := by
    rw [← (counts_planOf i).2]
    exact clockRun_runItems (codecUnit_of_mem_planOf hpulses) s'
  rw [exec_eq]
  refine ⟨_, rfl, ?_⟩
  cases hencode : encode i with
  | request w => exact clockRun_carryOut (hrun (accept s))
  | wire op =>
    rw [planOf_of_encode_wire hencode] at hrun
    exact hrun s

/-- Settles O33: the units of an operation leave CLOCK's direction, and its mark is set with the first pulse. -/
theorem pulsingRecordsOnlyTheClockMark : Obligations.PulsingRecordsOnlyTheClockMark := by
  intro i s hpulses
  obtain ⟨t, hexec, hrun⟩ := exec_clockRun hpulses s
  exact ⟨t, hexec, hrun.dir, hrun.faults⟩

/-- Settles O52: from CLOCK LOW, each unit keeps the order and ends with CLOCK LOW. -/
theorem dataMovesOnlyWhileClockIsLow : Obligations.DataMovesOnlyWhileClockIsLow := by
  intro i s hpulses hlow
  obtain ⟨t, hexec, hrun⟩ := exec_clockRun hpulses s
  obtain ⟨evs, htrace, hevents⟩ := hrun.wire
  exact ⟨t, evs, hexec, htrace, hevents.ordered, by simp [hrun.lat, hlow]⟩

/-! ## The timing table (R277) -/

/-- One event completes no pulse: it must follow a rising edge (R15). -/
theorem clockPulses_singleton (e : WireEvent) : clockPulses [e] = 0 := by
  simp [clockPulses]

/-- Where CLOCK is not pulsed, either one event is emitted or none drives CLOCK HIGH (R118, R181, R182). -/
theorem exec_clockPulses_of_not_pulses {i : Instr} (hpulses : pulses i = false) (s : State) :
    ∃ t evs, exec i s = .next t ∧ t.trace = s.trace ++ evs ∧ clockPulses evs = pulseCount i := by
  cases i with
  | setdir sg d => exact ⟨_, _, setdirWritesOneDirection.2 sg d s, rfl, clockPulses_singleton _⟩
  | setlvl sg l => exact ⟨_, _, setlvlWritesOneLatch.2 sg l s, rfl, clockPulses_singleton _⟩
  | readlvl sg =>
    obtain ⟨b, -, hexec⟩ := readlvlReturnsTheSampledLevel.2 sg s
    exact ⟨_, _, hexec, rfl, clockPulses_singleton _⟩
  | releaseall => exact ⟨_, _, releaseallReleasesEverySignal.2 s, rfl, rfl⟩
  | enter => exact ⟨_, _, enterAssertsResetThenPgm.2 s, rfl, rfl⟩
  | exit =>
    obtain ⟨p, r, -, -, hexec⟩ := exitDeassertsPgmThenReset.2 s
    exact ⟨_, _, hexec, rfl, rfl⟩
  | hwreset => exact ⟨_, _, hwresetDoesNothing.2 s, rfl, rfl⟩
  | _ => cases hpulses

theorem exec_clockPulses (i : Instr) (s : State) :
    ∃ t evs, exec i s = .next t ∧ t.trace = s.trace ++ evs ∧ clockPulses evs = pulseCount i := by
  cases hpulses : pulses i with
  | false => exact exec_clockPulses_of_not_pulses hpulses s
  | true =>
    obtain ⟨t, hexec, hrun⟩ := exec_clockRun hpulses s
    obtain ⟨evs, htrace, hevents⟩ := hrun.wire
    exact ⟨t, evs, hexec, htrace, hevents.pulses⟩

/-- Settles O49: events and waits are those of the instruction's actions, pulses those of its units. -/
theorem eventsPulsesAndWaitsFollowTheTable : Obligations.EventsPulsesAndWaitsFollowTheTable := by
  intro i s
  obtain ⟨t, evs, hexec, htrace, hshape⟩ := exec_trace i s
  obtain ⟨t', evs', hexec', htrace', hpulses⟩ := exec_clockPulses i s
  obtain rfl : t' = t := by simpa [hexec'] using hexec
  obtain rfl : evs' = evs := List.append_cancel_left (htrace'.symm.trans htrace)
  refine ⟨t', evs', hexec, htrace, ?_, hpulses, ?_⟩
  · rw [← List.length_map shapeOf, hshape, length_actionsOf]
  · rw [waitTotal_eq_waitSum, hshape, (waits_actionsOf i).2]

end Sys2Proof.Machine

/-! The encoder, the decoder and the assembler of spec/30_encoding.md undo each other (R81, R82, R86, R88 to R90, R95),
and a step runs what is decoded (R80, R90); at reset the samples add up (R260). -/

namespace Sys2Proof

open Sys2Proof.Slice0

/-! ## The codes of an operand's values (R7, R88) -/

@[simp] theorem signalOfCode_signalCode (sg : Signal) : signalOfCode (signalCode sg) = sg := by cases sg <;> rfl

@[simp] theorem signalCode_signalOfCode (c : BitVec 2) : signalCode (signalOfCode c) = c := by revert c; decide

@[simp] theorem dirOfBit_dirBit (d : Dir) : dirOfBit (dirBit d) = d := by cases d <;> rfl

@[simp] theorem dirBit_dirOfBit (b : Bool) : dirBit (dirOfBit b) = b := by cases b <;> rfl

@[simp] theorem levelOfBit_levelBit (l : Level) : levelOfBit (levelBit l) = l := by cases l <;> rfl

@[simp] theorem levelBit_levelOfBit (b : Bool) : levelBit (levelOfBit b) = b := by cases b <;> rfl

@[simp] theorem modeOfBit_modeBit (m : Mode) : modeOfBit (modeBit m) = m := by cases m <;> rfl

@[simp] theorem modeBit_modeOfBit (b : Bool) : modeBit (modeOfBit b) = b := by cases b <;> rfl

/-! ## The operands of an encoded word (R82) -/

@[simp] theorem signalField_requestWord (d : BitVec 16) (v : Bool) (sg : Signal) (o : BitVec 8) :
    signalField (requestWord d (signalOperand v sg) o) = sg := by
  rw [signalField, aField_requestWord]
  cases v <;> cases sg <;> rfl

@[simp] theorem valueField_requestWord (d : BitVec 16) (v : Bool) (sg : Signal) (o : BitVec 8) :
    valueField (requestWord d (signalOperand v sg) o) = v := by
  rw [valueField, aField_requestWord]
  cases v <;> cases sg <;> rfl

@[simp] theorem modeField_requestWord (d : BitVec 16) (m : Mode) (o : BitVec 8) :
    modeField (requestWord d (modeOperand m) o) = m := by
  rw [modeField, aField_requestWord]
  cases m <;> rfl

@[simp] theorem byteField_requestWord (v : BitVec 8) (a : BitVec 4) (o : BitVec 8) :
    byteField (requestWord (0#8 ++ v) a o) = v := by
  rw [byteField, dField_requestWord]
  exact extractLsb'_zero_append 8 8 v

@[simp] theorem opcodeField_requestWord (op : BitVec 6) (a : BitVec 4) (o : BitVec 8) :
    opcodeField (requestWord (0#10 ++ op) a o) = op := by
  rw [opcodeField, dField_requestWord]
  exact extractLsb'_zero_append 10 6 op

/-- Settles O2: the decoder selects on the OP field the encoder packs, and each operand's field gives back the operand
packed there. -/
theorem decodeOfEncodeIsIdentity : Obligations.DecodeOfEncodeIsIdentity := by
  intro i
  cases i with
  | icsp00 | icsp02 | icsp03 | icsp04 | icsp05 | icsp06 | icsp08 | icsp09 | icsp0B | icsp16 | icsp17 | icsp18 => rfl
  | _ => simp [encode, decode, decodeRequest]

/-- Settles O1: each word is the encoding of the instruction it stands for. -/
theorem wordsDecodeAsEncodedInTheSpec : Obligations.WordsDecodeAsEncodedInTheSpec :=
  ⟨decodeOfEncodeIsIdentity (.setdir .reset .input), decodeOfEncodeIsIdentity (.setlvl .clock .high),
    decodeOfEncodeIsIdentity (.sendbyte 0xA5 6), decodeOfEncodeIsIdentity (.loadpgm 0x2ABC),
    decodeOfEncodeIsIdentity (.incaddr 3), decodeOfEncodeIsIdentity (.bulkdata .enhanced),
    decodeOfEncodeIsIdentity .enter, decodeOfEncodeIsIdentity .icsp16⟩

/-! ## Masking a word field by field (R81, R82) -/

/-- A word is its four fields in a row. -/
theorem append_fields (w : ReqWord) : dField w ++ w.extractLsb' 12 4 ++ aField w ++ opField w = w := by
  simp only [dField, aField, opField]
  erw [BitVec.extractLsb'_append_extractLsb'_eq_extractLsb' rfl,
    BitVec.extractLsb'_append_extractLsb'_eq_extractLsb' rfl,
    BitVec.extractLsb'_append_extractLsb'_eq_extractLsb' rfl]
  exact BitVec.extractLsb'_eq_self

/-- A mask that keeps the OP field and clears the spare bits acts on the D and A fields alone. -/
theorem and_eq_requestWord {w m : ReqWord} {d d' : BitVec 16} {a a' : BitVec 4} (hd : dField w &&& d = d')
    (ha : aField w &&& a = a') (hm : m = requestWord d a (BitVec.allOnes 8)) :
    w &&& m = requestWord d' a' (opField w) := by
  conv_lhs => rw [← append_fields w, hm]
  unfold requestWord
  erw [BitVec.and_append, BitVec.and_append, BitVec.and_append, hd, ha, BitVec.and_zero, BitVec.and_allOnes]
  rfl

/-- Masked to its low bits, a vector is those bits under zeros. -/
theorem and_zero_append_allOnes {n m : Nat} (x : BitVec (n + m)) :
    x &&& (0#n ++ BitVec.allOnes m) = 0#n ++ x.extractLsb' 0 m := by
  conv_lhs => rw [← BitVec.extractLsb'_append_extractLsb' (x := x), BitVec.and_append]
  simp

theorem dField_and_byte (w : ReqWord) : dField w &&& 0x00FF#16 = 0#8 ++ byteField w :=
  and_zero_append_allOnes (n := 8) (m := 8) (dField w)

theorem dField_and_opcode (w : ReqWord) : dField w &&& 0x003F#16 = 0#10 ++ opcodeField w :=
  and_zero_append_allOnes (n := 10) (m := 6) (dField w)

theorem aField_and_valueSignal (w : ReqWord) :
    aField w &&& 0b0111#4 = signalOperand (valueField w) (signalField w) := by
  rw [signalOperand, valueField, signalField, signalCode_signalOfCode]
  generalize aField w = a
  revert a
  decide

theorem aField_and_signal (w : ReqWord) : aField w &&& 0b0011#4 = signalOperand false (signalField w) := by
  rw [signalOperand, signalField, signalCode_signalOfCode]
  generalize aField w = a
  revert a
  decide

theorem aField_and_mode (w : ReqWord) : aField w &&& 0b0001#4 = modeOperand (modeField w) := by
  rw [modeOperand, modeField, modeBit_modeOfBit]
  generalize aField w = a
  revert a
  decide

/-! ## What the mask of each format leaves of a word: the operands of the format, encoded again (R82) -/

theorem and_mask_formatN (w : ReqWord) : w &&& 0x000000FF#32 = requestWord 0#16 0#4 (opField w) :=
  and_eq_requestWord BitVec.and_zero BitVec.and_zero rfl

theorem and_mask_formatS (w : ReqWord) :
    w &&& 0x000003FF#32 = requestWord 0#16 (signalOperand false (signalField w)) (opField w) :=
  and_eq_requestWord BitVec.and_zero (aField_and_signal w) rfl

theorem and_mask_formatSV (w : ReqWord) :
    w &&& 0x000007FF#32 = requestWord 0#16 (signalOperand (valueField w) (signalField w)) (opField w) :=
  and_eq_requestWord BitVec.and_zero (aField_and_valueSignal w) rfl

theorem and_mask_formatM (w : ReqWord) :
    w &&& 0x000001FF#32 = requestWord 0#16 (modeOperand (modeField w)) (opField w) :=
  and_eq_requestWord BitVec.and_zero (aField_and_mode w) rfl

theorem and_mask_formatBN (w : ReqWord) :
    w &&& 0x00FF0FFF#32 = requestWord (0#8 ++ byteField w) (aField w) (opField w) :=
  and_eq_requestWord (dField_and_byte w) BitVec.and_allOnes rfl

theorem and_mask_formatC (w : ReqWord) :
    w &&& 0x00FF00FF#32 = requestWord (0#8 ++ byteField w) 0#4 (opField w) :=
  and_eq_requestWord (dField_and_byte w) BitVec.and_zero rfl

theorem and_mask_formatO (w : ReqWord) :
    w &&& 0x003F00FF#32 = requestWord (0#10 ++ opcodeField w) 0#4 (opField w) :=
  and_eq_requestWord (dField_and_opcode w) BitVec.and_zero rfl

theorem and_mask_formatW (w : ReqWord) : w &&& 0xFFFF00FF#32 = requestWord (dField w) 0#4 (opField w) :=
  and_eq_requestWord BitVec.and_allOnes BitVec.and_zero rfl

/-- Settles O3: each OP's mask is its format's, and that leaves the operands the decoder read. -/
theorem encodeOfDecodeClearsIgnoredBits : Obligations.EncodeOfDecodeClearsIgnoredBits := by
  intro w i hdecode
  unfold decodeRequest at hdecode
  split at hdecode
  case h_23 => cases hdecode
  all_goals
    rename_i hcode
    obtain rfl := Except.ok.inj hdecode
    have hop := congrArg (BitVec.ofNat 8) hcode
    simp only [BitVec.ofNat_toNat, BitVec.setWidth_eq] at hop
    simp [encode, usedBits, hop, and_mask_formatN, and_mask_formatS, and_mask_formatSV, and_mask_formatM,
      and_mask_formatBN, and_mask_formatC, and_mask_formatO, and_mask_formatW]

/-! ## The table of assembly forms (R95) -/

/-- A word is its fields shifted to their places and or-ed together (R81). -/
theorem requestWord_eq_or (d : BitVec 16) (a : BitVec 4) (o : BitVec 8) :
    requestWord d a o = o.zeroExtend 32 ||| d.zeroExtend 32 <<< 16 ||| a.zeroExtend 32 <<< 8 := by
  calc requestWord d a o = (d ++ 0#4 ++ a ++ o).setWidth 32 := (BitVec.setWidth_eq _).symm
    _ = d.setWidth 32 <<< 16 ||| (0#4).setWidth 32 <<< 12 ||| a.setWidth 32 <<< 8 ||| o.setWidth 32 :=
      BitVec.setWidth_append_append_append_eq_shiftLeft_setWidth_or
    _ = _ := by
      rw [BitVec.or_comm]
      simp [BitVec.or_assoc]

/-- Zeros above an operand add nothing to the word. -/
theorem setWidth_zero_append (n : Nat) {m k : Nat} (x : BitVec m) : (0#n ++ x).setWidth k = x.setWidth k := by
  rw [BitVec.setWidth_append_eq_shiftLeft_setWidth_or]
  simp

theorem requestWord_signalOperand (v : Bool) (sg : Signal) (o : BitVec 8) :
    requestWord 0 (signalOperand v sg) o =
      o.zeroExtend 32 ||| (BitVec.ofBool v).zeroExtend 32 <<< 10 ||| (signalCode sg).zeroExtend 32 <<< 8 := by
  rw [requestWord_eq_or, BitVec.or_assoc, BitVec.or_assoc]
  congr 1
  cases v <;> cases sg <;> rfl

theorem requestWord_modeOperand (m : Mode) (o : BitVec 8) :
    requestWord 0 (modeOperand m) o = o.zeroExtend 32 ||| (BitVec.ofBool (modeBit m)).zeroExtend 32 <<< 8 := by
  rw [requestWord_eq_or, modeOperand]
  simp [setWidth_zero_append 3 (m := 1)]

theorem requestWord_word (w : BitVec 16) (o : BitVec 8) :
    requestWord w 0 o = o.zeroExtend 32 ||| w.zeroExtend 32 <<< 16 := by
  simp [requestWord_eq_or]

/-- Settles O5: the operands, or-ed in at the places of their fields. -/
theorem encoderWritesTheAssemblyTable : Obligations.EncoderWritesTheAssemblyTable := by
  refine ⟨fun sg d => congrArg _ (requestWord_signalOperand (dirBit d) sg 0x01),
    fun sg l => congrArg _ (requestWord_signalOperand (levelBit l) sg 0x02), fun sg => ?readlvl, fun v n => ?sendbyte,
    fun w => congrArg _ (requestWord_word w 0x11), fun op => ?sendop, fun w => congrArg _ (requestWord_word w 0x21),
    fun w => congrArg _ (requestWord_word w 0x22), fun w => congrArg _ (requestWord_word w 0x23), fun c => ?incaddr,
    fun m => congrArg _ (requestWord_modeOperand m 0x28), fun m => congrArg _ (requestWord_modeOperand m 0x29),
    fun m => congrArg _ (requestWord_modeOperand m 0x2A), rfl, rfl, rfl, rfl, rfl, rfl, rfl, rfl, rfl⟩
  case readlvl =>
    rw [encode, requestWord_signalOperand]
    rfl
  case sendbyte => simp [encode, requestWord_eq_or, setWidth_zero_append 8 (m := 8)]
  case sendop => simp [encode, requestWord_eq_or, setWidth_zero_append 10 (m := 6)]
  case incaddr => simp [encode, requestWord_eq_or, setWidth_zero_append 8 (m := 8)]

end Sys2Proof

namespace Sys2Proof.Machine

/-! ## Assembly (R95) -/

/-- A number written from a field fits it. -/
@[simp] theorem fitted_toNat {n : Nat} (v : BitVec n) : fitted n v.toNat = some v := by
  simp [fitted, v.isLt]

/-- Settles O6: no two forms of R95 share a mnemonic, and every operand fits its field. -/
theorem assemblingAnInstructionsLineGivesIt : Obligations.AssemblingAnInstructionsLineGivesIt := by
  intro i w hencode
  cases i with
  | icsp00 | icsp02 | icsp03 | icsp04 | icsp05 | icsp06 | icsp08 | icsp09 | icsp0B | icsp16 | icsp17 | icsp18 =>
    cases hencode
  | _ => simp [assemble, mnemonicOf, operandsOf]

/-! ## A step runs the decoded instruction (R80, R90) -/

/-- A busy block runs the wire opcode its next unit decodes to. -/
theorem step_of_busy_decoded {s : State} {op : BitVec 6} {i : Instr} {rest : List Item} (hbusy : s.busy = true)
    (hitems : s.items = .opcode op :: rest) (hport : ∀ k r, s.port ≠ .reset k :: r) (hdecode : decodeWire op = .ok i) :
    step s = exec i { s with items := rest } := by
  simp [step, hbusy, stepBusy_eq s hport, advance, hitems, hdecode]

/-- Settles O7. -/
theorem stepRunsTheDecodedInstruction : Obligations.StepRunsTheDecodedInstruction :=
  ⟨fun _ _ _ _ => step_of_idle_decoded, fun _ _ _ _ => step_of_busy_decoded⟩

/-! ## Reset (R260) -/

/-- Settles O45: the reset state is idle. -/
theorem samplesAddUpAtReset : Obligations.SamplesAddUpAtReset := samplesAddUp_of_idle rfl

end Sys2Proof.Machine
